-- ==== Sys2Proof/Word.lean ====
section
/-! DEFINITION. The widths of the machine's values (00_scope.md R5, R7, R8): every register value is a 32-bit
pattern, and signed readings are taken explicitly where an operation asks for one. -/

namespace Sys2Proof

/-- A 32-bit container: a general register, `pc`, `nextPC`, `HI`, `LO`, an address, an instruction word (R5, R8). -/
abbrev Word := BitVec 32

/-- The smallest addressable unit (20_memory.md R40). -/
abbrev Byte := BitVec 8

/-- The value of a 16-bit access (20_memory.md R41). -/
abbrev Half := BitVec 16

/-- A 5-bit field of an instruction word that names one of the 32 general registers (30_encoding.md R61, R63). -/
abbrev RegIdx := BitVec 5

end Sys2Proof
end

