-- ==== Sys2Proof/Syntax.lean ====
section
/-! DEFINITION. The instruction set: one constructor for each row of spec/opcode_table.json (30_encoding.md R66 to
R69, R71).

A constructor carries EVERY field of its word, in the order of the word, the fields its instruction ignores too
(30_encoding.md R64): the dispatch ignores them, but a fault record holds the raw word, "all 32 bits unchanged"
(60_exceptions.md R221), so the instruction must determine its word (log 7). -/

namespace Sys2Proof

inductive Instr where
  -- The special group, `op = 0` (30_encoding.md R63, R67).
  /-- SLL `rd, rt, shamt` (44_shift.md R131); `rs` ignored. -/
  | sll (rs rt rd : RegIdx) (shamt : BitVec 5)
  /-- SRL `rd, rt, shamt` (R132); `rs` ignored. -/
  | srl (rs rt rd : RegIdx) (shamt : BitVec 5)
  /-- SRA `rd, rt, shamt` (R133); `rs` ignored. -/
  | sra (rs rt rd : RegIdx) (shamt : BitVec 5)
  /-- SLLV `rd, rt, rs` (R134); `shamt` ignored. -/
  | sllv (rs rt rd : RegIdx) (shamt : BitVec 5)
  /-- SRLV `rd, rt, rs` (R135); `shamt` ignored. -/
  | srlv (rs rt rd : RegIdx) (shamt : BitVec 5)
  /-- SRAV `rd, rt, rs` (R136); `shamt` ignored. -/
  | srav (rs rt rd : RegIdx) (shamt : BitVec 5)
  /-- JR `rs` (47_jump.md R173); `rt`, `rd`, `shamt` ignored. -/
  | jr (rs rt rd : RegIdx) (shamt : BitVec 5)
  /-- JALR `rd, rs` (R174); `rt`, `shamt` ignored. -/
  | jalr (rs rt rd : RegIdx) (shamt : BitVec 5)
  /-- SYSCALL (49_coproc_exception_invalid.md R195); bits 25:6 ignored. -/
  | syscall (code : BitVec 20)
  /-- BREAK (R196); bits 25:6 ignored. -/
  | brk (code : BitVec 20)
  /-- MFHI `rd` (46_muldiv.md R165); `rs`, `rt`, `shamt` ignored. -/
  | mfhi (rs rt rd : RegIdx) (shamt : BitVec 5)
  /-- MTHI `rs` (R167); `rt`, `rd`, `shamt` ignored. -/
  | mthi (rs rt rd : RegIdx) (shamt : BitVec 5)
  /-- MFLO `rd` (R166); `rs`, `rt`, `shamt` ignored. -/
  | mflo (rs rt rd : RegIdx) (shamt : BitVec 5)
  /-- MTLO `rs` (R168); `rt`, `rd`, `shamt` ignored. -/
  | mtlo (rs rt rd : RegIdx) (shamt : BitVec 5)
  /-- MULT `rs, rt` (R161); `rd`, `shamt` ignored. -/
  | mult (rs rt rd : RegIdx) (shamt : BitVec 5)
  /-- MULTU `rs, rt` (R162); `rd`, `shamt` ignored. -/
  | multu (rs rt rd : RegIdx) (shamt : BitVec 5)
  /-- DIV `rs, rt` (R163); `rd`, `shamt` ignored. -/
  | div (rs rt rd : RegIdx) (shamt : BitVec 5)
  /-- DIVU `rs, rt` (R164); `rd`, `shamt` ignored. -/
  | divu (rs rt rd : RegIdx) (shamt : BitVec 5)
  /-- ADD `rd, rs, rt` (41_arithmetic.md R101); `shamt` ignored. -/
  | add (rs rt rd : RegIdx) (shamt : BitVec 5)
  /-- ADDU `rd, rs, rt` (R102); `shamt` ignored. -/
  | addu (rs rt rd : RegIdx) (shamt : BitVec 5)
  /-- SUB `rd, rs, rt` (R105); `shamt` ignored. -/
  | sub (rs rt rd : RegIdx) (shamt : BitVec 5)
  /-- SUBU `rd, rs, rt` (R106); `shamt` ignored. -/
  | subu (rs rt rd : RegIdx) (shamt : BitVec 5)
  /-- AND `rd, rs, rt` (43_logical.md R121); `shamt` ignored. -/
  | and (rs rt rd : RegIdx) (shamt : BitVec 5)
  /-- OR `rd, rs, rt` (R122); `shamt` ignored. -/
  | or (rs rt rd : RegIdx) (shamt : BitVec 5)
  /-- XOR `rd, rs, rt` (R123); `shamt` ignored. -/
  | xor (rs rt rd : RegIdx) (shamt : BitVec 5)
  /-- NOR `rd, rs, rt` (R124); `shamt` ignored. -/
  | nor (rs rt rd : RegIdx) (shamt : BitVec 5)
  /-- SLT `rd, rs, rt` (42_comparison.md R111); `shamt` ignored. -/
  | slt (rs rt rd : RegIdx) (shamt : BitVec 5)
  /-- SLTU `rd, rs, rt` (R112); `shamt` ignored. -/
  | sltu (rs rt rd : RegIdx) (shamt : BitVec 5)
  -- The conditional-branch-and-link group, `op = 1` (R68).
  /-- BLTZAL `rs, imm` (48_branch.md R187): `rt = 16`. -/
  | bltzal (rs : RegIdx) (imm : Half)
  /-- BGEZAL `rs, imm` (R188): `rt = 17`. -/
  | bgezal (rs : RegIdx) (imm : Half)
  /-- BLTZ `rs, imm` (R185): `rt` any even value but 16 (R178). -/
  | bltz (rs rt : RegIdx) (imm : Half)
  /-- BGEZ `rs, imm` (R186): `rt` any odd value but 17 (R178). -/
  | bgez (rs rt : RegIdx) (imm : Half)
  -- Primary opcodes (R66).
  /-- J `target` (47_jump.md R171). -/
  | j (target : BitVec 26)
  /-- JAL `target` (R172). -/
  | jal (target : BitVec 26)
  /-- BEQ `rs, rt, imm` (48_branch.md R181). -/
  | beq (rs rt : RegIdx) (imm : Half)
  /-- BNE `rs, rt, imm` (R182). -/
  | bne (rs rt : RegIdx) (imm : Half)
  /-- BLEZ `rs, imm` (R183); `rt` ignored. -/
  | blez (rs rt : RegIdx) (imm : Half)
  /-- BGTZ `rs, imm` (R184); `rt` ignored. -/
  | bgtz (rs rt : RegIdx) (imm : Half)
  /-- ADDI `rt, rs, imm` (41_arithmetic.md R103). -/
  | addi (rs rt : RegIdx) (imm : Half)
  /-- ADDIU `rt, rs, imm` (R104). -/
  | addiu (rs rt : RegIdx) (imm : Half)
  /-- SLTI `rt, rs, imm` (42_comparison.md R113). -/
  | slti (rs rt : RegIdx) (imm : Half)
  /-- SLTIU `rt, rs, imm` (R114). -/
  | sltiu (rs rt : RegIdx) (imm : Half)
  /-- ANDI `rt, rs, imm` (43_logical.md R125). -/
  | andi (rs rt : RegIdx) (imm : Half)
  /-- ORI `rt, rs, imm` (R126). -/
  | ori (rs rt : RegIdx) (imm : Half)
  /-- XORI `rt, rs, imm` (R127). -/
  | xori (rs rt : RegIdx) (imm : Half)
  /-- LUI `rt, imm` (44_shift.md R137); `rs` ignored. -/
  | lui (rs rt : RegIdx) (imm : Half)
  /-- COP0 (49_coproc_exception_invalid.md R191, R219): `sub = w[25:21]` 0 is MFC0 `rt, rd`, 4 is MTC0 `rt, rd`;
  `low = w[10:0]`. -/
  | cop0 (sub : BitVec 5) (rt rd : RegIdx) (low : BitVec 11)
  /-- COP1 (R198): unassigned. -/
  | cop1 (bits : BitVec 26)
  /-- COP2 (R192). -/
  | cop2 (bits : BitVec 26)
  /-- COP3 (R198): unassigned. -/
  | cop3 (bits : BitVec 26)
  /-- LB `rt, imm(rs)` (45_load_store.md R141). -/
  | lb (rs rt : RegIdx) (imm : Half)
  /-- LH `rt, imm(rs)` (R143). -/
  | lh (rs rt : RegIdx) (imm : Half)
  /-- LWL (R150): reserved. -/
  | lwl (rs rt : RegIdx) (imm : Half)
  /-- LW `rt, imm(rs)` (R145). -/
  | lw (rs rt : RegIdx) (imm : Half)
  /-- LBU `rt, imm(rs)` (R142). -/
  | lbu (rs rt : RegIdx) (imm : Half)
  /-- LHU `rt, imm(rs)` (R144). -/
  | lhu (rs rt : RegIdx) (imm : Half)
  /-- LWR (R151): reserved. -/
  | lwr (rs rt : RegIdx) (imm : Half)
  /-- SB `rt, imm(rs)` (R146). -/
  | sb (rs rt : RegIdx) (imm : Half)
  /-- SH `rt, imm(rs)` (R147). -/
  | sh (rs rt : RegIdx) (imm : Half)
  /-- SWL (R152): reserved. -/
  | swl (rs rt : RegIdx) (imm : Half)
  /-- SW `rt, imm(rs)` (R148). -/
  | sw (rs rt : RegIdx) (imm : Half)
  /-- SWR (R153): reserved. -/
  | swr (rs rt : RegIdx) (imm : Half)
  /-- LWC0 (49_coproc_exception_invalid.md R193). -/
  | lwc0 (rs rt : RegIdx) (imm : Half)
  /-- LWC1 (R193). -/
  | lwc1 (rs rt : RegIdx) (imm : Half)
  /-- LWC2 (R193). -/
  | lwc2 (rs rt : RegIdx) (imm : Half)
  /-- LWC3 (R193). -/
  | lwc3 (rs rt : RegIdx) (imm : Half)
  /-- SWC0 (R194). -/
  | swc0 (rs rt : RegIdx) (imm : Half)
  /-- SWC1 (R194). -/
  | swc1 (rs rt : RegIdx) (imm : Half)
  /-- SWC2 (R194). -/
  | swc2 (rs rt : RegIdx) (imm : Half)
  /-- SWC3 (R194). -/
  | swc3 (rs rt : RegIdx) (imm : Half)
  /-- A word with `op = 0` and an unassigned function code (R197). -/
  | invalidSpecial (bits : BitVec 20) (funct : BitVec 6)
  /-- A word with an unassigned primary opcode other than COP1 and COP3 (R197). -/
  | invalid (op : BitVec 6) (bits : BitVec 26)
  deriving DecidableEq, Repr

end Sys2Proof
end

