-- ==== Sys2Proof/WellFormed.lean ====
section
/-! DEFINITION. Which terms of `Instr` stand for a word. Field widths are in the types; four constructors remain
whose fields the dispatch examines further (30_encoding.md R66 to R69). -/

namespace Sys2Proof

/-- The 28 assigned function codes of the special group (30_encoding.md R67). -/
def assignedFunct (f : BitVec 6) : Bool :=
  f ∈ [0x00#6, 0x02#6, 0x03#6, 0x04#6, 0x06#6, 0x07#6, 0x08#6, 0x09#6, 0x0C#6, 0x0D#6, 0x10#6, 0x11#6, 0x12#6,
    0x13#6, 0x18#6, 0x19#6, 0x1A#6, 0x1B#6, 0x20#6, 0x21#6, 0x22#6, 0x23#6, 0x24#6, 0x25#6, 0x26#6, 0x27#6,
    0x2A#6, 0x2B#6]

/-- The primary opcodes that reach a constructor other than `invalid`: the 38 populated entries of 30_encoding.md
R66, and 0x11 and 0x13, which are unassigned but have rows of their own (COP1, COP3; R71). -/
def listedOpcode (o : BitVec 6) : Bool :=
  o ∈ [0x00#6, 0x01#6, 0x02#6, 0x03#6, 0x04#6, 0x05#6, 0x06#6, 0x07#6, 0x08#6, 0x09#6, 0x0A#6, 0x0B#6, 0x0C#6,
    0x0D#6, 0x0E#6, 0x0F#6, 0x10#6, 0x11#6, 0x12#6, 0x13#6, 0x20#6, 0x21#6, 0x22#6, 0x23#6, 0x24#6, 0x25#6,
    0x26#6, 0x28#6, 0x29#6, 0x2A#6, 0x2B#6, 0x2E#6, 0x30#6, 0x31#6, 0x32#6, 0x33#6, 0x38#6, 0x39#6, 0x3A#6,
    0x3B#6]

/-- An instruction that some word decodes to. BLTZ and BGEZ have their `rt` as 30_encoding.md R68 selects it; an
invalid instruction has a code the tables leave unassigned (R69). -/
def Instr.wellFormed : Instr → Bool
  | .bltz _ rt _ => rt.extractLsb' 0 1 == 0#1 && rt.extractLsb' 1 4 != 0b1000#4
  | .bgez _ rt _ => rt.extractLsb' 0 1 == 1#1 && rt.extractLsb' 1 4 != 0b1000#4
  | .invalidSpecial _ funct => !assignedFunct funct
  | .invalid op _ => !listedOpcode op
  | .sll .. | .srl .. | .sra .. | .sllv .. | .srlv .. | .srav .. | .jr .. | .jalr .. | .syscall _ | .brk _
  | .mfhi .. | .mthi .. | .mflo .. | .mtlo .. | .mult .. | .multu .. | .div .. | .divu .. | .add .. | .addu ..
  | .sub .. | .subu .. | .and .. | .or .. | .xor .. | .nor .. | .slt .. | .sltu .. | .bltzal .. | .bgezal ..
  | .j _ | .jal _ | .beq .. | .bne .. | .blez .. | .bgtz .. | .addi .. | .addiu .. | .slti .. | .sltiu ..
  | .andi .. | .ori .. | .xori .. | .lui .. | .cop0 .. | .cop1 _ | .cop2 _ | .cop3 _ | .lb .. | .lh .. | .lwl ..
  | .lw .. | .lbu .. | .lhu .. | .lwr .. | .sb .. | .sh .. | .swl .. | .sw .. | .swr .. | .lwc0 .. | .lwc1 ..
  | .lwc2 .. | .lwc3 .. | .swc0 .. | .swc1 .. | .swc2 .. | .swc3 .. => true

end Sys2Proof
end

