-- ==== Sys2Proof/Decode.lean ====
section
/-! DEFINITION. The decoder (30_encoding.md R60 to R69, 40_step_dispatch.md R83 to R86), the encoder, and the
first-match reading of the opcode table (30_encoding.md R71). The numbers are those of 30_encoding.md. -/

namespace Sys2Proof

/-! ## Fields of a word (30_encoding.md R61 to R63) -/

def fieldOp (w : Word) : BitVec 6 := w.extractLsb' 26 6
def fieldRs (w : Word) : RegIdx := w.extractLsb' 21 5
def fieldRt (w : Word) : RegIdx := w.extractLsb' 16 5
def fieldRd (w : Word) : RegIdx := w.extractLsb' 11 5
def fieldShamt (w : Word) : BitVec 5 := w.extractLsb' 6 5
def fieldFunct (w : Word) : BitVec 6 := w.extractLsb' 0 6
def fieldImm (w : Word) : Half := w.extractLsb' 0 16
def fieldTarget (w : Word) : BitVec 26 := w.extractLsb' 0 26
/-- `w[25:6]`, the bits SYSCALL and BREAK ignore (49_coproc_exception_invalid.md R195). -/
def fieldCode (w : Word) : BitVec 20 := w.extractLsb' 6 20
/-- `w[10:0]`, the bits a coprocessor-0 move ignores (49_coproc_exception_invalid.md R219). -/
def fieldLow (w : Word) : BitVec 11 := w.extractLsb' 0 11

/-! ## Decoding -/

/-- The special group, re-dispatched on `funct` (30_encoding.md R67, 40_step_dispatch.md R84). -/
def decodeSpecial (w : Word) : Instr :=
  match fieldFunct w with
  | 0x00#6 => .sll (fieldRs w) (fieldRt w) (fieldRd w) (fieldShamt w)
  | 0x02#6 => .srl (fieldRs w) (fieldRt w) (fieldRd w) (fieldShamt w)
  | 0x03#6 => .sra (fieldRs w) (fieldRt w) (fieldRd w) (fieldShamt w)
  | 0x04#6 => .sllv (fieldRs w) (fieldRt w) (fieldRd w) (fieldShamt w)
  | 0x06#6 => .srlv (fieldRs w) (fieldRt w) (fieldRd w) (fieldShamt w)
  | 0x07#6 => .srav (fieldRs w) (fieldRt w) (fieldRd w) (fieldShamt w)
  | 0x08#6 => .jr (fieldRs w) (fieldRt w) (fieldRd w) (fieldShamt w)
  | 0x09#6 => .jalr (fieldRs w) (fieldRt w) (fieldRd w) (fieldShamt w)
  | 0x0C#6 => .syscall (fieldCode w)
  | 0x0D#6 => .brk (fieldCode w)
  | 0x10#6 => .mfhi (fieldRs w) (fieldRt w) (fieldRd w) (fieldShamt w)
  | 0x11#6 => .mthi (fieldRs w) (fieldRt w) (fieldRd w) (fieldShamt w)
  | 0x12#6 => .mflo (fieldRs w) (fieldRt w) (fieldRd w) (fieldShamt w)
  | 0x13#6 => .mtlo (fieldRs w) (fieldRt w) (fieldRd w) (fieldShamt w)
  | 0x18#6 => .mult (fieldRs w) (fieldRt w) (fieldRd w) (fieldShamt w)
  | 0x19#6 => .multu (fieldRs w) (fieldRt w) (fieldRd w) (fieldShamt w)
  | 0x1A#6 => .div (fieldRs w) (fieldRt w) (fieldRd w) (fieldShamt w)
  | 0x1B#6 => .divu (fieldRs w) (fieldRt w) (fieldRd w) (fieldShamt w)
  | 0x20#6 => .add (fieldRs w) (fieldRt w) (fieldRd w) (fieldShamt w)
  | 0x21#6 => .addu (fieldRs w) (fieldRt w) (fieldRd w) (fieldShamt w)
  | 0x22#6 => .sub (fieldRs w) (fieldRt w) (fieldRd w) (fieldShamt w)
  | 0x23#6 => .subu (fieldRs w) (fieldRt w) (fieldRd w) (fieldShamt w)
  | 0x24#6 => .and (fieldRs w) (fieldRt w) (fieldRd w) (fieldShamt w)
  | 0x25#6 => .or (fieldRs w) (fieldRt w) (fieldRd w) (fieldShamt w)
  | 0x26#6 => .xor (fieldRs w) (fieldRt w) (fieldRd w) (fieldShamt w)
  | 0x27#6 => .nor (fieldRs w) (fieldRt w) (fieldRd w) (fieldShamt w)
  | 0x2A#6 => .slt (fieldRs w) (fieldRt w) (fieldRd w) (fieldShamt w)
  | 0x2B#6 => .sltu (fieldRs w) (fieldRt w) (fieldRd w) (fieldShamt w)
  | f => .invalidSpecial (fieldCode w) f

/-- The high bit of the opcode-1 selector: whether `rt[4:1]` equals `0b1000` (30_encoding.md R68). -/
def linkSelector (rt : RegIdx) : Bool := rt.extractLsb' 1 4 == 0b1000#4

/-- The low bit of the opcode-1 selector: `rt[0]` (30_encoding.md R68). -/
def geSelector (rt : RegIdx) : Bool := rt.extractLsb' 0 1 == 1#1

/-- The conditional-branch-and-link group, re-dispatched on the 2-bit selector (30_encoding.md R68,
40_step_dispatch.md R85). -/
def decodeBranchLink (w : Word) : Instr :=
  match linkSelector (fieldRt w), geSelector (fieldRt w) with
  | false, false => .bltz (fieldRs w) (fieldRt w) (fieldImm w)
  | false, true => .bgez (fieldRs w) (fieldRt w) (fieldImm w)
  | true, false => .bltzal (fieldRs w) (fieldImm w)
  | true, true => .bgezal (fieldRs w) (fieldImm w)

/-- The handler a word selects: the primary dispatch on `op` (30_encoding.md R66, 40_step_dispatch.md R83). Total: an
unassigned entry is the invalid-instruction handler (30_encoding.md R69, 40_step_dispatch.md R86). -/
def decode (w : Word) : Instr :=
  match fieldOp w with
  | 0x00#6 => decodeSpecial w
  | 0x01#6 => decodeBranchLink w
  | 0x02#6 => .j (fieldTarget w)
  | 0x03#6 => .jal (fieldTarget w)
  | 0x04#6 => .beq (fieldRs w) (fieldRt w) (fieldImm w)
  | 0x05#6 => .bne (fieldRs w) (fieldRt w) (fieldImm w)
  | 0x06#6 => .blez (fieldRs w) (fieldRt w) (fieldImm w)
  | 0x07#6 => .bgtz (fieldRs w) (fieldRt w) (fieldImm w)
  | 0x08#6 => .addi (fieldRs w) (fieldRt w) (fieldImm w)
  | 0x09#6 => .addiu (fieldRs w) (fieldRt w) (fieldImm w)
  | 0x0A#6 => .slti (fieldRs w) (fieldRt w) (fieldImm w)
  | 0x0B#6 => .sltiu (fieldRs w) (fieldRt w) (fieldImm w)
  | 0x0C#6 => .andi (fieldRs w) (fieldRt w) (fieldImm w)
  | 0x0D#6 => .ori (fieldRs w) (fieldRt w) (fieldImm w)
  | 0x0E#6 => .xori (fieldRs w) (fieldRt w) (fieldImm w)
  | 0x0F#6 => .lui (fieldRs w) (fieldRt w) (fieldImm w)
  | 0x10#6 => .cop0 (fieldRs w) (fieldRt w) (fieldRd w) (fieldLow w)
  | 0x11#6 => .cop1 (fieldTarget w)
  | 0x12#6 => .cop2 (fieldTarget w)
  | 0x13#6 => .cop3 (fieldTarget w)
  | 0x20#6 => .lb (fieldRs w) (fieldRt w) (fieldImm w)
  | 0x21#6 => .lh (fieldRs w) (fieldRt w) (fieldImm w)
  | 0x22#6 => .lwl (fieldRs w) (fieldRt w) (fieldImm w)
  | 0x23#6 => .lw (fieldRs w) (fieldRt w) (fieldImm w)
  | 0x24#6 => .lbu (fieldRs w) (fieldRt w) (fieldImm w)
  | 0x25#6 => .lhu (fieldRs w) (fieldRt w) (fieldImm w)
  | 0x26#6 => .lwr (fieldRs w) (fieldRt w) (fieldImm w)
  | 0x28#6 => .sb (fieldRs w) (fieldRt w) (fieldImm w)
  | 0x29#6 => .sh (fieldRs w) (fieldRt w) (fieldImm w)
  | 0x2A#6 => .swl (fieldRs w) (fieldRt w) (fieldImm w)
  | 0x2B#6 => .sw (fieldRs w) (fieldRt w) (fieldImm w)
  | 0x2E#6 => .swr (fieldRs w) (fieldRt w) (fieldImm w)
  | 0x30#6 => .lwc0 (fieldRs w) (fieldRt w) (fieldImm w)
  | 0x31#6 => .lwc1 (fieldRs w) (fieldRt w) (fieldImm w)
  | 0x32#6 => .lwc2 (fieldRs w) (fieldRt w) (fieldImm w)
  | 0x33#6 => .lwc3 (fieldRs w) (fieldRt w) (fieldImm w)
  | 0x38#6 => .swc0 (fieldRs w) (fieldRt w) (fieldImm w)
  | 0x39#6 => .swc1 (fieldRs w) (fieldRt w) (fieldImm w)
  | 0x3A#6 => .swc2 (fieldRs w) (fieldRt w) (fieldImm w)
  | 0x3B#6 => .swc3 (fieldRs w) (fieldRt w) (fieldImm w)
  | o => .invalid o (fieldTarget w)

/-! ## Decoding bytes -/

/-- Why a list of bytes is rejected. -/
inductive DecodeError where
  /-- Fewer than the four bytes of a word remain (30_encoding.md R60: every instruction is one 32-bit word). Safe:
  the decoder answers no instruction. -/
  | truncated (available : Nat)
  deriving DecidableEq, Repr

/-- A word from its bytes, the byte at the lowest address least significant (20_memory.md R42). -/
def wordOfBytes (b0 b1 b2 b3 : Byte) : Word := b3 ++ b2 ++ b1 ++ b0

/-- The bytes of a word in the order of their addresses (20_memory.md R42). -/
def bytesOfWord (w : Word) : List Byte :=
  [w.extractLsb' 0 8, w.extractLsb' 8 8, w.extractLsb' 16 8, w.extractLsb' 24 8]

/-- The first instruction of a list of bytes and the bytes after it. -/
def decodeBytes : List Byte → Except DecodeError (Instr × List Byte)
  | b0 :: b1 :: b2 :: b3 :: rest => .ok (decode (wordOfBytes b0 b1 b2 b3), rest)
  | bs => .error (.truncated bs.length)

/-- The word whose low `nbits` bits are those of `w` and whose other bits are 0. -/
def tableWord (nbits w : Nat) : Word := BitVec.ofNat 32 (w % 2 ^ nbits)

/-- The instruction the decoder reads from the bytes of a word numbered as spec/opcode_table.json numbers it. -/
def decodeTableWord (nbits w : Nat) : Option Instr :=
  match decodeBytes (bytesOfWord (tableWord nbits w)) with
  | .ok (i, _) => some i
  | .error _ => none

/-! ## Encoding -/

/-- The register form (30_encoding.md R63). -/
def encodeR (op : BitVec 6) (rs rt rd : RegIdx) (shamt : BitVec 5) (funct : BitVec 6) : Word :=
  op ++ rs ++ rt ++ rd ++ shamt ++ funct

/-- The immediate form (30_encoding.md R61). -/
def encodeI (op : BitVec 6) (rs rt : RegIdx) (imm : Half) : Word := op ++ rs ++ rt ++ imm

/-- The jump form (30_encoding.md R62), and every word taken whole by its primary opcode. -/
def encodeJ (op : BitVec 6) (target : BitVec 26) : Word := op ++ target

/-- A word of the special group with its bits 25:6 taken together. -/
def encodeCode (code : BitVec 20) (funct : BitVec 6) : Word := 0x00#6 ++ code ++ funct

/-- A coprocessor-0 word (49_coproc_exception_invalid.md R219). -/
def encodeCop0 (sub : BitVec 5) (rt rd : RegIdx) (low : BitVec 11) : Word := 0x10#6 ++ sub ++ rt ++ rd ++ low

/-- The word of an instruction (30_encoding.md R66 to R68). -/
def encode : Instr → Word
  | .sll rs rt rd shamt => encodeR 0x00#6 rs rt rd shamt 0x00#6
  | .srl rs rt rd shamt => encodeR 0x00#6 rs rt rd shamt 0x02#6
  | .sra rs rt rd shamt => encodeR 0x00#6 rs rt rd shamt 0x03#6
  | .sllv rs rt rd shamt => encodeR 0x00#6 rs rt rd shamt 0x04#6
  | .srlv rs rt rd shamt => encodeR 0x00#6 rs rt rd shamt 0x06#6
  | .srav rs rt rd shamt => encodeR 0x00#6 rs rt rd shamt 0x07#6
  | .jr rs rt rd shamt => encodeR 0x00#6 rs rt rd shamt 0x08#6
  | .jalr rs rt rd shamt => encodeR 0x00#6 rs rt rd shamt 0x09#6
  | .syscall code => encodeCode code 0x0C#6
  | .brk code => encodeCode code 0x0D#6
  | .mfhi rs rt rd shamt => encodeR 0x00#6 rs rt rd shamt 0x10#6
  | .mthi rs rt rd shamt => encodeR 0x00#6 rs rt rd shamt 0x11#6
  | .mflo rs rt rd shamt => encodeR 0x00#6 rs rt rd shamt 0x12#6
  | .mtlo rs rt rd shamt => encodeR 0x00#6 rs rt rd shamt 0x13#6
  | .mult rs rt rd shamt => encodeR 0x00#6 rs rt rd shamt 0x18#6
  | .multu rs rt rd shamt => encodeR 0x00#6 rs rt rd shamt 0x19#6
  | .div rs rt rd shamt => encodeR 0x00#6 rs rt rd shamt 0x1A#6
  | .divu rs rt rd shamt => encodeR 0x00#6 rs rt rd shamt 0x1B#6
  | .add rs rt rd shamt => encodeR 0x00#6 rs rt rd shamt 0x20#6
  | .addu rs rt rd shamt => encodeR 0x00#6 rs rt rd shamt 0x21#6
  | .sub rs rt rd shamt => encodeR 0x00#6 rs rt rd shamt 0x22#6
  | .subu rs rt rd shamt => encodeR 0x00#6 rs rt rd shamt 0x23#6
  | .and rs rt rd shamt => encodeR 0x00#6 rs rt rd shamt 0x24#6
  | .or rs rt rd shamt => encodeR 0x00#6 rs rt rd shamt 0x25#6
  | .xor rs rt rd shamt => encodeR 0x00#6 rs rt rd shamt 0x26#6
  | .nor rs rt rd shamt => encodeR 0x00#6 rs rt rd shamt 0x27#6
  | .slt rs rt rd shamt => encodeR 0x00#6 rs rt rd shamt 0x2A#6
  | .sltu rs rt rd shamt => encodeR 0x00#6 rs rt rd shamt 0x2B#6
  | .bltzal rs imm => encodeI 0x01#6 rs 0b10000#5 imm
  | .bgezal rs imm => encodeI 0x01#6 rs 0b10001#5 imm
  | .bltz rs rt imm => encodeI 0x01#6 rs rt imm
  | .bgez rs rt imm => encodeI 0x01#6 rs rt imm
  | .j target => encodeJ 0x02#6 target
  | .jal target => encodeJ 0x03#6 target
  | .beq rs rt imm => encodeI 0x04#6 rs rt imm
  | .bne rs rt imm => encodeI 0x05#6 rs rt imm
  | .blez rs rt imm => encodeI 0x06#6 rs rt imm
  | .bgtz rs rt imm => encodeI 0x07#6 rs rt imm
  | .addi rs rt imm => encodeI 0x08#6 rs rt imm
  | .addiu rs rt imm => encodeI 0x09#6 rs rt imm
  | .slti rs rt imm => encodeI 0x0A#6 rs rt imm
  | .sltiu rs rt imm => encodeI 0x0B#6 rs rt imm
  | .andi rs rt imm => encodeI 0x0C#6 rs rt imm
  | .ori rs rt imm => encodeI 0x0D#6 rs rt imm
  | .xori rs rt imm => encodeI 0x0E#6 rs rt imm
  | .lui rs rt imm => encodeI 0x0F#6 rs rt imm
  | .cop0 sub rt rd low => encodeCop0 sub rt rd low
  | .cop1 bits => encodeJ 0x11#6 bits
  | .cop2 bits => encodeJ 0x12#6 bits
  | .cop3 bits => encodeJ 0x13#6 bits
  | .lb rs rt imm => encodeI 0x20#6 rs rt imm
  | .lh rs rt imm => encodeI 0x21#6 rs rt imm
  | .lwl rs rt imm => encodeI 0x22#6 rs rt imm
  | .lw rs rt imm => encodeI 0x23#6 rs rt imm
  | .lbu rs rt imm => encodeI 0x24#6 rs rt imm
  | .lhu rs rt imm => encodeI 0x25#6 rs rt imm
  | .lwr rs rt imm => encodeI 0x26#6 rs rt imm
  | .sb rs rt imm => encodeI 0x28#6 rs rt imm
  | .sh rs rt imm => encodeI 0x29#6 rs rt imm
  | .swl rs rt imm => encodeI 0x2A#6 rs rt imm
  | .sw rs rt imm => encodeI 0x2B#6 rs rt imm
  | .swr rs rt imm => encodeI 0x2E#6 rs rt imm
  | .lwc0 rs rt imm => encodeI 0x30#6 rs rt imm
  | .lwc1 rs rt imm => encodeI 0x31#6 rs rt imm
  | .lwc2 rs rt imm => encodeI 0x32#6 rs rt imm
  | .lwc3 rs rt imm => encodeI 0x33#6 rs rt imm
  | .swc0 rs rt imm => encodeI 0x38#6 rs rt imm
  | .swc1 rs rt imm => encodeI 0x39#6 rs rt imm
  | .swc2 rs rt imm => encodeI 0x3A#6 rs rt imm
  | .swc3 rs rt imm => encodeI 0x3B#6 rs rt imm
  | .invalidSpecial bits funct => encodeCode bits funct
  | .invalid op bits => encodeJ op bits

/-! ## The opcode table, read by first match (30_encoding.md R71) -/

/-- A row of spec/opcode_table.json: its mnemonic, its `mask` and its `match`. -/
structure OpcodeRow where
  mnemonic : String
  mask : Word
  pattern : Word
  deriving DecidableEq, Repr

/-- The mnemonic of the row an instruction belongs to. -/
def Instr.mnemonic : Instr → String
  | .sll .. => "SLL"
  | .srl .. => "SRL"
  | .sra .. => "SRA"
  | .sllv .. => "SLLV"
  | .srlv .. => "SRLV"
  | .srav .. => "SRAV"
  | .jr .. => "JR"
  | .jalr .. => "JALR"
  | .syscall .. => "SYSCALL"
  | .brk .. => "BREAK"
  | .mfhi .. => "MFHI"
  | .mthi .. => "MTHI"
  | .mflo .. => "MFLO"
  | .mtlo .. => "MTLO"
  | .mult .. => "MULT"
  | .multu .. => "MULTU"
  | .div .. => "DIV"
  | .divu .. => "DIVU"
  | .add .. => "ADD"
  | .addu .. => "ADDU"
  | .sub .. => "SUB"
  | .subu .. => "SUBU"
  | .and .. => "AND"
  | .or .. => "OR"
  | .xor .. => "XOR"
  | .nor .. => "NOR"
  | .slt .. => "SLT"
  | .sltu .. => "SLTU"
  | .bltzal .. => "BLTZAL"
  | .bgezal .. => "BGEZAL"
  | .bltz .. => "BLTZ"
  | .bgez .. => "BGEZ"
  | .j .. => "J"
  | .jal .. => "JAL"
  | .beq .. => "BEQ"
  | .bne .. => "BNE"
  | .blez .. => "BLEZ"
  | .bgtz .. => "BGTZ"
  | .addi .. => "ADDI"
  | .addiu .. => "ADDIU"
  | .slti .. => "SLTI"
  | .sltiu .. => "SLTIU"
  | .andi .. => "ANDI"
  | .ori .. => "ORI"
  | .xori .. => "XORI"
  | .lui .. => "LUI"
  | .cop0 .. => "COP0"
  | .cop1 .. => "COP1"
  | .cop2 .. => "COP2"
  | .cop3 .. => "COP3"
  | .lb .. => "LB"
  | .lh .. => "LH"
  | .lwl .. => "LWL"
  | .lw .. => "LW"
  | .lbu .. => "LBU"
  | .lhu .. => "LHU"
  | .lwr .. => "LWR"
  | .sb .. => "SB"
  | .sh .. => "SH"
  | .swl .. => "SWL"
  | .sw .. => "SW"
  | .swr .. => "SWR"
  | .lwc0 .. => "LWC0"
  | .lwc1 .. => "LWC1"
  | .lwc2 .. => "LWC2"
  | .lwc3 .. => "LWC3"
  | .swc0 .. => "SWC0"
  | .swc1 .. => "SWC1"
  | .swc2 .. => "SWC2"
  | .swc3 .. => "SWC3"
  | .invalidSpecial .. => "INVALID_SPECIAL"
  | .invalid .. => "INVALID"

/-- spec/opcode_table.json, its rows in their order. -/
def opcodeTable : List OpcodeRow :=
  [⟨"SLL", 0xFC00003F#32, 0x00000000#32⟩,
   ⟨"SRL", 0xFC00003F#32, 0x00000002#32⟩,
   ⟨"SRA", 0xFC00003F#32, 0x00000003#32⟩,
   ⟨"SLLV", 0xFC00003F#32, 0x00000004#32⟩,
   ⟨"SRLV", 0xFC00003F#32, 0x00000006#32⟩,
   ⟨"SRAV", 0xFC00003F#32, 0x00000007#32⟩,
   ⟨"JR", 0xFC00003F#32, 0x00000008#32⟩,
   ⟨"JALR", 0xFC00003F#32, 0x00000009#32⟩,
   ⟨"SYSCALL", 0xFC00003F#32, 0x0000000C#32⟩,
   ⟨"BREAK", 0xFC00003F#32, 0x0000000D#32⟩,
   ⟨"MFHI", 0xFC00003F#32, 0x00000010#32⟩,
   ⟨"MTHI", 0xFC00003F#32, 0x00000011#32⟩] ++
  [⟨"MFLO", 0xFC00003F#32, 0x00000012#32⟩,
   ⟨"MTLO", 0xFC00003F#32, 0x00000013#32⟩,
   ⟨"MULT", 0xFC00003F#32, 0x00000018#32⟩,
   ⟨"MULTU", 0xFC00003F#32, 0x00000019#32⟩,
   ⟨"DIV", 0xFC00003F#32, 0x0000001A#32⟩,
   ⟨"DIVU", 0xFC00003F#32, 0x0000001B#32⟩,
   ⟨"ADD", 0xFC00003F#32, 0x00000020#32⟩,
   ⟨"ADDU", 0xFC00003F#32, 0x00000021#32⟩,
   ⟨"SUB", 0xFC00003F#32, 0x00000022#32⟩,
   ⟨"SUBU", 0xFC00003F#32, 0x00000023#32⟩,
   ⟨"AND", 0xFC00003F#32, 0x00000024#32⟩,
   ⟨"OR", 0xFC00003F#32, 0x00000025#32⟩] ++
  [⟨"XOR", 0xFC00003F#32, 0x00000026#32⟩,
   ⟨"NOR", 0xFC00003F#32, 0x00000027#32⟩,
   ⟨"SLT", 0xFC00003F#32, 0x0000002A#32⟩,
   ⟨"SLTU", 0xFC00003F#32, 0x0000002B#32⟩,
   ⟨"BLTZAL", 0xFC1F0000#32, 0x04100000#32⟩,
   ⟨"BGEZAL", 0xFC1F0000#32, 0x04110000#32⟩,
   ⟨"BLTZ", 0xFC010000#32, 0x04000000#32⟩,
   ⟨"BGEZ", 0xFC010000#32, 0x04010000#32⟩,
   ⟨"J", 0xFC000000#32, 0x08000000#32⟩,
   ⟨"JAL", 0xFC000000#32, 0x0C000000#32⟩,
   ⟨"BEQ", 0xFC000000#32, 0x10000000#32⟩,
   ⟨"BNE", 0xFC000000#32, 0x14000000#32⟩] ++
  [⟨"BLEZ", 0xFC000000#32, 0x18000000#32⟩,
   ⟨"BGTZ", 0xFC000000#32, 0x1C000000#32⟩,
   ⟨"ADDI", 0xFC000000#32, 0x20000000#32⟩,
   ⟨"ADDIU", 0xFC000000#32, 0x24000000#32⟩,
   ⟨"SLTI", 0xFC000000#32, 0x28000000#32⟩,
   ⟨"SLTIU", 0xFC000000#32, 0x2C000000#32⟩,
   ⟨"ANDI", 0xFC000000#32, 0x30000000#32⟩,
   ⟨"ORI", 0xFC000000#32, 0x34000000#32⟩,
   ⟨"XORI", 0xFC000000#32, 0x38000000#32⟩,
   ⟨"LUI", 0xFC000000#32, 0x3C000000#32⟩,
   ⟨"COP0", 0xFC000000#32, 0x40000000#32⟩,
   ⟨"COP1", 0xFC000000#32, 0x44000000#32⟩] ++
  [⟨"COP2", 0xFC000000#32, 0x48000000#32⟩,
   ⟨"COP3", 0xFC000000#32, 0x4C000000#32⟩,
   ⟨"LB", 0xFC000000#32, 0x80000000#32⟩,
   ⟨"LH", 0xFC000000#32, 0x84000000#32⟩,
   ⟨"LWL", 0xFC000000#32, 0x88000000#32⟩,
   ⟨"LW", 0xFC000000#32, 0x8C000000#32⟩,
   ⟨"LBU", 0xFC000000#32, 0x90000000#32⟩,
   ⟨"LHU", 0xFC000000#32, 0x94000000#32⟩,
   ⟨"LWR", 0xFC000000#32, 0x98000000#32⟩,
   ⟨"SB", 0xFC000000#32, 0xA0000000#32⟩,
   ⟨"SH", 0xFC000000#32, 0xA4000000#32⟩,
   ⟨"SWL", 0xFC000000#32, 0xA8000000#32⟩] ++
  [⟨"SW", 0xFC000000#32, 0xAC000000#32⟩,
   ⟨"SWR", 0xFC000000#32, 0xB8000000#32⟩,
   ⟨"LWC0", 0xFC000000#32, 0xC0000000#32⟩,
   ⟨"LWC1", 0xFC000000#32, 0xC4000000#32⟩,
   ⟨"LWC2", 0xFC000000#32, 0xC8000000#32⟩,
   ⟨"LWC3", 0xFC000000#32, 0xCC000000#32⟩,
   ⟨"SWC0", 0xFC000000#32, 0xE0000000#32⟩,
   ⟨"SWC1", 0xFC000000#32, 0xE4000000#32⟩,
   ⟨"SWC2", 0xFC000000#32, 0xE8000000#32⟩,
   ⟨"SWC3", 0xFC000000#32, 0xEC000000#32⟩,
   ⟨"INVALID_SPECIAL", 0xFC000000#32, 0x00000000#32⟩,
   ⟨"INVALID", 0x00000000#32, 0x00000000#32⟩]

/-- "A decoder tries the rows in order and takes the first row with `(w & mask) == match`" (30_encoding.md R71). -/
def firstMatch (w : Word) : Option OpcodeRow := opcodeTable.find? fun r => (w &&& r.mask) == r.pattern

end Sys2Proof
end

