-- ==== Sys2Proof/Machine/Flags.lean ====
section
/-! DEFINITION. "The block has no status flags, no condition codes, no carry, no overflow bit" (10_state.md R29): what
another machine keeps in flags is here a condition computed and used within one instruction. -/

namespace Sys2Proof.Machine

/-- Signed overflow of `a + b`: the operands' signs agree and the wrapped result's differs (41_arithmetic.md R107). -/
def addOverflows (a b : Word) : Bool := a.msb == b.msb && (a + b).msb != a.msb

/-- Signed overflow of `a - b`: the operands' signs differ and the wrapped result's differs from the minuend's
(41_arithmetic.md R107). -/
def subOverflows (a b : Word) : Bool := a.msb != b.msb && (a - b).msb != a.msb

/-- The result of a comparison: `0x00000001` or `0x00000000` (42_comparison.md R110). -/
def boolWord (c : Bool) : Word := if c then 1#32 else 0#32

/-- `a <s b` (00_scope.md R8). -/
def ltSigned (a b : Word) : Bool := decide (a.toInt < b.toInt)

/-- `a <u b` (00_scope.md R8). -/
def ltUnsigned (a b : Word) : Bool := decide (a.toNat < b.toNat)

/-- `s(v) <= 0`: `v[31] = 1` or `v = 0` (48_branch.md R189). -/
def leZero (v : Word) : Bool := v.msb || v == 0#32

/-- `s(v) > 0`: `v[31] = 0` and `v != 0` (48_branch.md R189). -/
def gtZero (v : Word) : Bool := !v.msb && v != 0#32

/-- `s(v) < 0`: `v[31] = 1` (48_branch.md R189). -/
def ltZero (v : Word) : Bool := v.msb

/-- `s(v) >= 0`: `v[31] = 0` (48_branch.md R189). -/
def geZero (v : Word) : Bool := !v.msb

end Sys2Proof.Machine
end

