-- ==== Sys2Proof/Machine/Operands.lean ====
section
/-! DEFINITION. How operands are assembled from the fields of a word (30_encoding.md R65) and from registers. -/

namespace Sys2Proof.Machine

/-- `simm`: the sign-extended 16-bit immediate (30_encoding.md R65). -/
def simm (imm : Half) : Word := imm.signExtend 32

/-- `zimm`: the zero-extended 16-bit immediate (30_encoding.md R65). -/
def zimm (imm : Half) : Word := imm.zeroExtend 32

/-- `uimm`: `imm || 0x0000` (30_encoding.md R65). -/
def uimm (imm : Half) : Word := imm ++ 0#16

/-- `boff`: `sext_32(imm) << 2` (30_encoding.md R65). -/
def boff (imm : Half) : Word := simm imm <<< 2

/-- `jtarget`: `pc[31:28] || target || 0b00`, with the advanced `pc` (30_encoding.md R65, 47_jump.md R170). -/
def jtarget (pc : Word) (target : BitVec 26) : Word := pc.extractLsb' 28 4 ++ target ++ 0#2

/-- The count of a variable shift: `x[rs][4:0]` (44_shift.md R130). -/
def shiftCount (v : Word) : BitVec 5 := v.extractLsb' 0 5

/-- The effective address: `(x[rs] + sext_32(imm)) mod 2^32` (45_load_store.md R140, 20_memory.md R58). -/
def effectiveAddress (base : Word) (imm : Half) : Word := base + simm imm

end Sys2Proof.Machine
end

