-- ==== Sys2Proof/Config.lean ====
section
/-! DEFINITION. The parameters a model of this core takes as arguments (00_scope.md R6) and the free values: what the
host's coprocessor 0 answers (70_reset_and_hazards.md R201) and what an accessor of the host's own answers (R200). -/

namespace Sys2Proof.Config

/-- What the default accessor `FlatLE` does with a misaligned 16- or 32-bit access (20_memory.md R45). The
parameter is OPEN in the spec: both values are modelled. -/
inductive MisalignedPolicy where
  /-- The operation has no result and the step that made it does not exist. -/
  | refuse
  /-- The byte formulas of 20_memory.md R41 are applied modulo 2^32. -/
  | bytewise
  deriving DecidableEq, Repr

/-- The parameter `Mem`: the memory accessor the host binds (00_scope.md R6, 20_memory.md R41). -/
inductive Accessor where
  /-- The spec's default instance: a total little-endian byte array over all 2^32 addresses. -/
  | flatLE
  /-- Any other accessor, by its opaque backing handle (70_reset_and_hazards.md R200): it may refuse addresses the host
  does not map (20_memory.md R57) and have reads with side effects (R49). Its answers are the free values below. -/
  | bound (handle : Nat)
  deriving DecidableEq, Repr

/-- The parameters of 00_scope.md R6; `Cop0` is `cop0Register` below. -/
structure Params where
  /-- The accessor behind every fetch, load and store. -/
  mem : Accessor
  /-- What `FlatLE` does with a misaligned access. -/
  misalignedPolicy : MisalignedPolicy
  /-- ADD, ADDI and SUB fault on signed overflow instead of wrapping (41_arithmetic.md R107). -/
  trapOnOverflow : Bool
  /-- MFC0 and MTC0 are routed to the coprocessor-0 capability (49_coproc_exception_invalid.md R219). -/
  cop0MovesEnabled : Bool
  deriving DecidableEq, Repr

/-- The defaults of 00_scope.md R6.
DESIGN CHOICE (log 3): `refuse` for the OPEN parameter, the value the spec recommends. Safe: it stops. -/
def Params.default : Params where
  mem := .flatLE
  misalignedPolicy := .refuse
  trapOnOverflow := false
  cop0MovesEnabled := false

/-- One call of the coprocessor-0 capability (70_reset_and_hazards.md R201). -/
inductive Cop0Call where
  | getRegister (index : RegIdx)
  | setRegister (index : RegIdx) (value : Word)
  deriving DecidableEq, Repr

/-- FREE VALUE (log 5): what `GetRegister(index)` answers after the given calls (oldest first). "What the registers
are, and any side effect of reading or writing one, belong to the host" (70_reset_and_hazards.md R201), so nothing
constrains it. -/
opaque cop0Register : List Cop0Call → RegIdx → Word

/-- One call of the memory accessor: its six operations (20_memory.md R41, 70_reset_and_hazards.md R200). -/
inductive MemCall where
  | read8 (addr : Word)
  | read16 (addr : Word)
  | read32 (addr : Word)
  | write8 (addr : Word) (value : Byte)
  | write16 (addr : Word) (value : Half)
  | write32 (addr : Word) (value : Word)
  deriving DecidableEq, Repr

/-- What reaches the backing of a bound accessor. -/
inductive BackingEvent where
  /-- A call the accessor performed. -/
  | call (c : MemCall)
  /-- A byte the host wrote through its own means (70_reset_and_hazards.md R210). -/
  | hostByte (addr : Word) (value : Byte)
  deriving DecidableEq, Repr

/-! FREE VALUES (log 10): what the bound accessor with a given handle answers after the given events (newest first).
`none` is a refusal (20_memory.md R57). "What lies at any address, where ROM, RAM and devices sit" is the platform's
(20_memory.md R50), so nothing constrains them here; the round trip of R56 is kept where they are read (Ops.lean). -/

/-- `read8` of a bound accessor. -/
opaque boundRead8 : Nat → List BackingEvent → Word → Option Byte

/-- `read16` of a bound accessor. -/
opaque boundRead16 : Nat → List BackingEvent → Word → Option Half

/-- `read32` of a bound accessor. -/
opaque boundRead32 : Nat → List BackingEvent → Word → Option Word

/-- Whether a bound accessor performs a write. -/
opaque boundPerforms : Nat → List BackingEvent → MemCall → Bool

end Sys2Proof.Config
end

