-- ==== Sys2Proof/Machine/State.lean ====
section
/-! DEFINITION. The state of the machine (10_state.md R20), its outcomes' reasons, and the state right after reset
(10_state.md R35, 70_reset_and_hazards.md R250). -/

namespace Sys2Proof.Machine

/-- The kind of a fault record (60_exceptions.md R220, R221). -/
inductive FaultKind where
  | unimplementedInstruction
  | invalidOpcode
  | arithmeticOverflow
  deriving DecidableEq, Repr

/-- The cause of a fault record (60_exceptions.md R220, R221). -/
inductive FaultCause where
  | unalignedLoadStore
  | coprocessor
  | syscall
  | brk
  | overflow
  | none
  deriving DecidableEq, Repr

/-- The fault record `(kind, cause, F, w)` (60_exceptions.md R221). -/
structure FaultRecord where
  kind : FaultKind
  cause : FaultCause
  /-- The address the faulting word was fetched from. -/
  fetchPC : Word
  /-- The raw instruction word. -/
  word : Word
  deriving DecidableEq, Repr

/-- One transaction at a port: the memory accessor's (70_reset_and_hazards.md R200) or the coprocessor-0 capability's
(R201). -/
inductive PortCall where
  | mem (call : Config.MemCall)
  | cop0 (call : Config.Cop0Call)
  deriving DecidableEq, Repr

/-- The contents of memory: the bytes that differ from `Memory.unlisted`, by rising address. -/
abbrev Memory := List Host.Cell

structure State where
  /-- `x[0..31]`; `x[0]` is read and written through `State.getReg` and `State.setReg` (10_state.md R21). -/
  gpr : Vector Word 32
  /-- The address of the next word to fetch (10_state.md R25). -/
  pc : Word
  /-- The address of the word to fetch after that (10_state.md R25). -/
  nextPC : Word
  /-- `HI` (10_state.md R30). -/
  hi : Word
  /-- `LO` (10_state.md R30). -/
  lo : Word
  /-- The fault latch (10_state.md R33). -/
  fault : Option FaultRecord
  /-- The byte array of the accessor `FlatLE` (10_state.md R32, 20_memory.md R41); no other accessor touches it. -/
  mem : Memory
  /-- What the backing of a bound accessor has received, newest first; MODEL's own field, which `FlatLE` leaves alone
  (log 10). -/
  backing : List Config.BackingEvent
  /-- The calls the host's coprocessor-0 capability has received, oldest first; MODEL's own field (log 5). -/
  cop0 : List Config.Cop0Call
  /-- The port calls of the step just performed, in order; MODEL's own output field (log 6). -/
  portCalls : List PortCall
  /-- The parameters, fixed at configuration (00_scope.md R6, 70_reset_and_hazards.md R206; log 3). -/
  params : Config.Params
  deriving DecidableEq, Repr

/-- Why the machine has no step. Neither is a fault of the block: those are latched in `State.fault`
(60_exceptions.md R222). -/
inductive Fault where
  /-- `step`, on a core whose latch is set: "If `fault != none` the core has no step" (40_step_dispatch.md R92).
  Safe: the hardware does nothing either. -/
  | halted (record : FaultRecord)
  /-- `step`, when the accessor refuses the fetch: the core is stuck in the state before the step (20_memory.md R47,
  R57). Safe: nothing is claimed of a run from there. -/
  | fetchRefused (addr : Word)
  /-- LB, LBU, LH, LHU, LW, SB, SH, SW, when the accessor refuses the data access: the step does not exist and nothing of it has
  happened (20_memory.md R45, R57). Safe: nothing is claimed of a run from there. -/
  | dataRefused (addr : Word)
  deriving DecidableEq, Repr

/-- Why the model has no meaning for an instruction. -/
inductive Refusal where
  /-- Only an arm of `exec` whose instruction is not modelled; none is left. Safe. -/
  | notModelled (mnemonic : String)
  deriving DecidableEq, Repr

/-- The machine right after reset (10_state.md R35, 70_reset_and_hazards.md R250): every register, `pc`, `nextPC`, `HI`
and `LO` zero, no fault; nothing in memory (DESIGN CHOICE, log 4), no accessor event yet (DESIGN CHOICE, log 10), no
coprocessor-0 call yet (DESIGN CHOICE, log 5), no port call yet (DESIGN CHOICE, log 6), the parameters at their defaults
(log 3). -/
def State.reset : State where
  gpr := Vector.replicate 32 0#32
  pc := 0#32
  nextPC := 0#32
  hi := 0#32
  lo := 0#32
  fault := none
  mem := []
  backing := []
  cop0 := []
  portCalls := []
  params := Config.Params.default

end Sys2Proof.Machine
end

