-- ==== Sys2Proof/Machine/Ops.lean ====
section
/-! DEFINITION. The named operations the meanings are written with: registers, the pipeline advance, the memory
accessor, the coprocessor-0 port, taking a fault, and Reset, the one way out of a fault. -/

namespace Sys2Proof.Machine

/-- The step's three outcomes, at this machine's types. -/
abbrev Outcome := Host.Outcome State Fault Refusal

/-! ## General registers (10_state.md R21, R22) -/

/-- `GetRegister(i)`: "register 0 always returns zero" (10_state.md R21). -/
def State.getReg (s : State) (i : RegIdx) : Word := if i = 0#5 then 0#32 else s.gpr[i.toFin]

/-- The register file after `SetRegister(i, v)`: "no-op when `i == 0`" (10_state.md R21). -/
def writeGpr (g : Vector Word 32) (i : RegIdx) (v : Word) : Vector Word 32 :=
  if i = 0#5 then g else g.set i.toFin v

/-- `x[i] <- v` (00_scope.md R9). -/
def State.setReg (s : State) (i : RegIdx) (v : Word) : State := { s with gpr := writeGpr s.gpr i v }

/-- `HI <- h; LO <- l` (46_muldiv.md R160). -/
def State.setHiLo (s : State) (h l : Word) : State := { s with hi := h, lo := l }

/-! ## The program-counter pair -/

/-- The pipeline advance, before the fetched word executes: `pc <- nextPC; nextPC <- nextPC + 4` modulo 2^32
(40_step_dispatch.md R82, 10_state.md R27). -/
def State.advance (s : State) : State := { s with pc := s.nextPC, nextPC := s.nextPC + 4#32 }

/-- `nextPC <- a`: the address of the instruction after the delay slot (00_scope.md R9). -/
def State.setNextPC (s : State) (a : Word) : State := { s with nextPC := a }

/-! ## Memory: a byte array over all 2^32 addresses (20_memory.md R40, R41) -/

/-- What an address that is not listed reads as.
DESIGN CHOICE (log 4): 0x00; the spec leaves the initial contents to the host. Unsafe. -/
def Memory.unlisted : Byte := 0#8

/-- The byte at an address. -/
def Memory.read : Memory → Nat → Byte
  | [], _ => Memory.unlisted
  | (k, b) :: m, a => if a = k then b else Memory.read m a

/-- Write a byte, keeping the list in its canonical form. -/
def Memory.write : Memory → Nat → Byte → Memory
  | [], a, v => if v = Memory.unlisted then [] else [(a, v)]
  | (k, b) :: m, a, v =>
    if a < k then (if v = Memory.unlisted then (k, b) :: m else (a, v) :: (k, b) :: m)
    else if a = k then (if v = Memory.unlisted then m else (a, v) :: m)
    else (k, b) :: Memory.write m a v

/-- Whether every cell's address is at least `lo` and below 2^32, addresses strictly rise and no cell holds what an
unlisted address reads as. -/
def Memory.wfFrom : Nat → Memory → Bool
  | _, [] => true
  | lo, (k, b) :: m => decide (lo ≤ k) && decide (k < 2 ^ 32) && b != Memory.unlisted && Memory.wfFrom (k + 1) m

/-- The canonical form: equal memories are equal lists. -/
def Memory.wf (m : Memory) : Bool := Memory.wfFrom 0 m

/-- The byte at a 32-bit address. -/
def Memory.byteAt (m : Memory) (a : Word) : Byte := m.read a.toNat

/-- `MemRead(addr, 2)`: little-endian, the second byte at `addr + 1` modulo 2^32 (20_memory.md R41, R42, R45). -/
def Memory.halfAt (m : Memory) (a : Word) : Half := m.byteAt (a + 1#32) ++ m.byteAt a

/-- `MemRead(addr, 4)`: little-endian (20_memory.md R41, R42, R45). -/
def Memory.wordAt (m : Memory) (a : Word) : Word :=
  m.byteAt (a + 3#32) ++ m.byteAt (a + 2#32) ++ m.byteAt (a + 1#32) ++ m.byteAt a

/-- `MemWrite(addr, 1, v)` (20_memory.md R41). -/
def Memory.writeByte (m : Memory) (a : Word) (v : Byte) : Memory := m.write a.toNat v

/-- `MemWrite(addr, 2, v)`: `B[addr+i] <- v[8i+7:8i]` (20_memory.md R41, R45). -/
def Memory.writeHalf (m : Memory) (a : Word) (v : Half) : Memory :=
  (m.writeByte a (v.extractLsb' 0 8)).writeByte (a + 1#32) (v.extractLsb' 8 8)

/-- `MemWrite(addr, 4, v)`: `B[addr+i] <- v[8i+7:8i]` (20_memory.md R41, R45). -/
def Memory.writeWord (m : Memory) (a : Word) (v : Word) : Memory :=
  (((m.writeByte a (v.extractLsb' 0 8)).writeByte (a + 1#32) (v.extractLsb' 8 8)).writeByte (a + 2#32)
    (v.extractLsb' 16 8)).writeByte (a + 3#32) (v.extractLsb' 24 8)

/-! ## The accessor: `FlatLE` with its policy, or one the host binds (20_memory.md R41, R45, R56, R57) -/

/-- A multiple of 2 (20_memory.md R45). -/
def alignedHalf (a : Word) : Bool := a.extractLsb' 0 1 == 0#1

/-- A multiple of 4 (20_memory.md R45). -/
def alignedWord (a : Word) : Bool := a.extractLsb' 0 2 == 0#2

/-- Whether `FlatLE` performs a 16-bit access at `a` (20_memory.md R45). -/
def State.acceptsHalf (s : State) (a : Word) : Bool :=
  match s.params.misalignedPolicy with
  | .refuse => alignedHalf a
  | .bytewise => true

/-- Whether `FlatLE` performs a 32-bit access at `a` (20_memory.md R45, R47). -/
def State.acceptsWord (s : State) (a : Word) : Bool :=
  match s.params.misalignedPolicy with
  | .refuse => alignedWord a
  | .bytewise => true

/-- `read8` of the bound accessor `h` after `events`: right after a `write8` of the same address, the value written, which
the round trip of 20_memory.md R56 requires of every accessor (DEDUCED, log 12); else its free answer. -/
def boundRead8 (h : Nat) (events : List Config.BackingEvent) (a : Word) : Option Byte :=
  match events with
  | .call (.write8 b v) :: _ => if b = a then some v else Config.boundRead8 h events a
  | _ => Config.boundRead8 h events a

/-- `read16` of a bound accessor, with the round trip at even addresses (20_memory.md R56; log 12). -/
def boundRead16 (h : Nat) (events : List Config.BackingEvent) (a : Word) : Option Half :=
  match events with
  | .call (.write16 b v) :: _ => if b = a ∧ alignedHalf a = true then some v else Config.boundRead16 h events a
  | _ => Config.boundRead16 h events a

/-- `read32` of a bound accessor, with the round trip at multiples of 4 (20_memory.md R56; log 12). -/
def boundRead32 (h : Nat) (events : List Config.BackingEvent) (a : Word) : Option Word :=
  match events with
  | .call (.write32 b v) :: _ => if b = a ∧ alignedWord a = true then some v else Config.boundRead32 h events a
  | _ => Config.boundRead32 h events a

/-- `read8`, or nothing if the accessor refuses; for `FlatLE` byte accesses are always aligned (20_memory.md R45). -/
def State.read8 (s : State) (a : Word) : Option Byte :=
  match s.params.mem with
  | .flatLE => some (s.mem.byteAt a)
  | .bound h => boundRead8 h s.backing a

/-- `read16`, or nothing if the accessor refuses. -/
def State.read16 (s : State) (a : Word) : Option Half :=
  match s.params.mem with
  | .flatLE => if s.acceptsHalf a then some (s.mem.halfAt a) else none
  | .bound h => boundRead16 h s.backing a

/-- `read32`, or nothing if the accessor refuses. -/
def State.read32 (s : State) (a : Word) : Option Word :=
  match s.params.mem with
  | .flatLE => if s.acceptsWord a then some (s.mem.wordAt a) else none
  | .bound h => boundRead32 h s.backing a

/-- The byte array after a write by a bound accessor, which leaves it alone, or nothing if the accessor refuses. -/
def State.boundWrite (s : State) (h : Nat) (c : Config.MemCall) : Option Memory :=
  if Config.boundPerforms h s.backing c then some s.mem else none

/-- The byte array after `write8`, or nothing if the accessor refuses. -/
def State.write8 (s : State) (a : Word) (v : Byte) : Option Memory :=
  match s.params.mem with
  | .flatLE => some (s.mem.writeByte a v)
  | .bound h => s.boundWrite h (.write8 a v)

/-- The byte array after `write16`, or nothing if the accessor refuses. -/
def State.write16 (s : State) (a : Word) (v : Half) : Option Memory :=
  match s.params.mem with
  | .flatLE => if s.acceptsHalf a then some (s.mem.writeHalf a v) else none
  | .bound h => s.boundWrite h (.write16 a v)

/-- The byte array after `write32`, or nothing if the accessor refuses. -/
def State.write32 (s : State) (a : Word) (v : Word) : Option Memory :=
  match s.params.mem with
  | .flatLE => if s.acceptsWord a then some (s.mem.writeWord a v) else none
  | .bound h => s.boundWrite h (.write32 a v)

/-- What the backing has received after one more event: a bound accessor keeps it, `FlatLE` is its byte array alone
(log 10). -/
def State.received (s : State) (e : Config.BackingEvent) : List Config.BackingEvent :=
  match s.params.mem with
  | .flatLE => s.backing
  | .bound _ => e :: s.backing

/-- The byte array becomes `m`. -/
def State.setMem (s : State) (m : Memory) : State := { s with mem := m }

/-- An event reaches the accessor's backing. -/
def State.receive (s : State) (e : Config.BackingEvent) : State := { s with backing := s.received e }

/-- A call goes out at the memory port and is performed (70_reset_and_hazards.md R200; logs 6 and 10). -/
def State.callMem (s : State) (c : Config.MemCall) : State :=
  { s with backing := s.received (.call c), portCalls := s.portCalls ++ [.mem c] }

/-- The instruction fetch: one `read32` at `pc` (20_memory.md R46, 40_step_dispatch.md R81). -/
def State.fetch (s : State) : Option Word := s.read32 s.pc

/-- The state in which the fetched word executes: the step's first port call has been the fetch (20_memory.md R49). -/
def State.fetched (s : State) : State :=
  { s with backing := s.received (.call (.read32 s.pc)), portCalls := [.mem (.read32 s.pc)] }

/-! ## The coprocessor-0 port (70_reset_and_hazards.md R201) -/

/-- `Cop0.GetRegister(index)`: what the host answers, a free value (log 5). -/
def State.cop0Get (s : State) (index : RegIdx) : Word := Config.cop0Register s.cop0 index

/-- A call goes out at the coprocessor-0 port. -/
def State.callCop0 (s : State) (c : Config.Cop0Call) : State :=
  { s with cop0 := s.cop0 ++ [c], portCalls := s.portCalls ++ [.cop0 c] }

/-! ## Taking a fault, and leaving it -/

/-- `raise Fault(kind, cause)` (60_exceptions.md R222): the pair advances, the record `(kind, cause, F, w)` with `F` the
address of the fetch is latched, and nothing else changes. No vector is taken (R223). `s` is the state at the fetch, so
its `pc` is `F` (log 8); `w` is the fetched word. -/
def State.raise (s : State) (kind : FaultKind) (cause : FaultCause) (w : Word) : State :=
  { s.advance with fault := some ⟨kind, cause, s.pc, w⟩ }

/-- `Reset()` (70_reset_and_hazards.md R203, R250, R251). No instruction returns from a fault (60_exceptions.md R227):
this host operation alone clears the latch (R228). It keeps memory, the bindings and the parameters. -/
def hostReset (s : State) : State :=
  { s with gpr := Vector.replicate 32 0#32, pc := 0#32, nextPC := 0#32, hi := 0#32, lo := 0#32, fault := none,
           portCalls := [] }

/-! ## Shapes of the meanings, each from the state at the fetch -/

/-- Write one general register: `x[d] <- v`. -/
def writeReg (s : State) (d : RegIdx) (v : Word) : Outcome := .next (s.advance.setReg d v)

/-- Write `HI` and `LO`. -/
def writeHiLo (s : State) (h l : Word) : Outcome := .next (s.advance.setHiLo h l)

/-- A handler that only faults (49_coproc_exception_invalid.md R190, 45_load_store.md R149). -/
def faultWith (s : State) (kind : FaultKind) (cause : FaultCause) (w : Word) : Outcome := .next (s.raise kind cause w)

/-- A load: the accessor is called with `call` and `got` is its answer, extended to 32 bits. If it refuses, the step
does not exist (20_memory.md R57). -/
def loadInto (s : State) (ea : Word) (call : Config.MemCall) (d : RegIdx) (got : Option Word) : Outcome :=
  match got with
  | some v => .next ((s.advance.callMem call).setReg d v)
  | none => .fault (.dataRefused ea)

/-- A store: the accessor is called with `call` and `got` is the memory it leaves. If it refuses, the step does not
exist (20_memory.md R57). -/
def storeTo (s : State) (ea : Word) (call : Config.MemCall) (got : Option Memory) : Outcome :=
  match got with
  | some m => .next ((s.advance.callMem call).setMem m)
  | none => .fault (.dataRefused ea)

/-- A jump to `target`, seen after the delay slot (47_jump.md R170). -/
def jumpTo (s : State) (target : Word) : Outcome := .next (s.advance.setNextPC target)

/-- A jump to `target` that links in `d`: `x[d] <- pc + 4` with the advanced `pc` (47_jump.md R170). -/
def jumpAndLink (s : State) (d : RegIdx) (target : Word) : Outcome :=
  .next ((s.advance.setReg d (s.advance.pc + 4#32)).setNextPC target)

/-- A branch by `off` from the advanced `pc`, if `taken` (48_branch.md R180). -/
def branchIf (s : State) (taken : Bool) (off : Word) : Outcome :=
  if taken then jumpTo s (s.advance.pc + off) else .next s.advance

/-- A branch that links in `x[31]` only when it is taken (48_branch.md R179). -/
def branchLinkIf (s : State) (taken : Bool) (off : Word) : Outcome :=
  if taken then jumpAndLink s 31#5 (s.advance.pc + off) else .next s.advance

end Sys2Proof.Machine
end

