-- ==== Sys2Proof/Machine/Arithmetic.lean ====
section
/-! DEFINITION. The arithmetic family (41_arithmetic.md R100 to R107). -/

namespace Sys2Proof.Machine

/-- The end of ADD, ADDI and SUB: with `trapOnOverflow`, a signed overflow faults and writes no register; else the
wrapped result is written (41_arithmetic.md R107, 60_exceptions.md R236). -/
def writeRegOrOverflow (s : State) (overflows : Bool) (d : RegIdx) (v w : Word) : Outcome :=
  if s.params.trapOnOverflow && overflows then faultWith s .arithmeticOverflow .overflow w else writeReg s d v

/-- ADD (41_arithmetic.md R101). -/
def execAdd (rs rt rd : RegIdx) (shamt : BitVec 5) (s : State) : Outcome :=
  writeRegOrOverflow s (addOverflows (s.getReg rs) (s.getReg rt)) rd (s.getReg rs + s.getReg rt)
    (encode (.add rs rt rd shamt))

/-- ADDU (41_arithmetic.md R102). -/
def execAddu (rs rt rd : RegIdx) (s : State) : Outcome := writeReg s rd (s.getReg rs + s.getReg rt)

/-- ADDI (41_arithmetic.md R103). -/
def execAddi (rs rt : RegIdx) (imm : Half) (s : State) : Outcome :=
  writeRegOrOverflow s (addOverflows (s.getReg rs) (simm imm)) rt (s.getReg rs + simm imm) (encode (.addi rs rt imm))

/-- ADDIU (41_arithmetic.md R104): the immediate is sign-extended. -/
def execAddiu (rs rt : RegIdx) (imm : Half) (s : State) : Outcome := writeReg s rt (s.getReg rs + simm imm)

/-- SUB (41_arithmetic.md R105). -/
def execSub (rs rt rd : RegIdx) (shamt : BitVec 5) (s : State) : Outcome :=
  writeRegOrOverflow s (subOverflows (s.getReg rs) (s.getReg rt)) rd (s.getReg rs - s.getReg rt)
    (encode (.sub rs rt rd shamt))

/-- SUBU (41_arithmetic.md R106). -/
def execSubu (rs rt rd : RegIdx) (s : State) : Outcome := writeReg s rd (s.getReg rs - s.getReg rt)

end Sys2Proof.Machine
end

