-- ==== Sys2Proof/Machine/Branch.lean ====
section
/-! DEFINITION. The branch family (48_branch.md R178 to R189). -/

namespace Sys2Proof.Machine

/-- BEQ (48_branch.md R181). -/
def execBeq (rs rt : RegIdx) (imm : Half) (s : State) : Outcome := branchIf s (s.getReg rs == s.getReg rt) (boff imm)

/-- BNE (48_branch.md R182). -/
def execBne (rs rt : RegIdx) (imm : Half) (s : State) : Outcome := branchIf s (s.getReg rs != s.getReg rt) (boff imm)

/-- BLEZ (48_branch.md R183). -/
def execBlez (rs : RegIdx) (imm : Half) (s : State) : Outcome := branchIf s (leZero (s.getReg rs)) (boff imm)

/-- BGTZ (48_branch.md R184). -/
def execBgtz (rs : RegIdx) (imm : Half) (s : State) : Outcome := branchIf s (gtZero (s.getReg rs)) (boff imm)

/-- BLTZ (48_branch.md R185). -/
def execBltz (rs : RegIdx) (imm : Half) (s : State) : Outcome := branchIf s (ltZero (s.getReg rs)) (boff imm)

/-- BGEZ (48_branch.md R186). -/
def execBgez (rs : RegIdx) (imm : Half) (s : State) : Outcome := branchIf s (geZero (s.getReg rs)) (boff imm)

/-- BLTZAL (48_branch.md R187). -/
def execBltzal (rs : RegIdx) (imm : Half) (s : State) : Outcome := branchLinkIf s (ltZero (s.getReg rs)) (boff imm)

/-- BGEZAL (48_branch.md R188). -/
def execBgezal (rs : RegIdx) (imm : Half) (s : State) : Outcome := branchLinkIf s (geZero (s.getReg rs)) (boff imm)

end Sys2Proof.Machine
end

