-- ==== Sys2Proof/Machine/Comparison.lean ====
section
/-! DEFINITION. The comparison family (42_comparison.md R110 to R114). -/

namespace Sys2Proof.Machine

/-- SLT (42_comparison.md R111). -/
def execSlt (rs rt rd : RegIdx) (s : State) : Outcome := writeReg s rd (boolWord (ltSigned (s.getReg rs) (s.getReg rt)))

/-- SLTU (42_comparison.md R112). -/
def execSltu (rs rt rd : RegIdx) (s : State) : Outcome :=
  writeReg s rd (boolWord (ltUnsigned (s.getReg rs) (s.getReg rt)))

/-- SLTI (42_comparison.md R113). -/
def execSlti (rs rt : RegIdx) (imm : Half) (s : State) : Outcome :=
  writeReg s rt (boolWord (ltSigned (s.getReg rs) (simm imm)))

/-- SLTIU (42_comparison.md R114): the immediate is sign-extended, then compared unsigned. -/
def execSltiu (rs rt : RegIdx) (imm : Half) (s : State) : Outcome :=
  writeReg s rt (boolWord (ltUnsigned (s.getReg rs) (simm imm)))

end Sys2Proof.Machine
end

