-- ==== Sys2Proof/Machine/Jump.lean ====
section
/-! DEFINITION. The jump family (47_jump.md R170 to R177). The `pc` of a formula is the advanced one (00_scope.md
R10). -/

namespace Sys2Proof.Machine

/-- J (47_jump.md R171). -/
def execJ (target : BitVec 26) (s : State) : Outcome := jumpTo s (jtarget s.advance.pc target)

/-- JAL (47_jump.md R172): links in `x[31]`. -/
def execJal (target : BitVec 26) (s : State) : Outcome := jumpAndLink s 31#5 (jtarget s.advance.pc target)

/-- JR (47_jump.md R173): all 32 bits of `x[rs]`, unchecked (R176). -/
def execJr (rs : RegIdx) (s : State) : Outcome := jumpTo s (s.getReg rs)

/-- JALR (47_jump.md R174): links in `x[rd]`; the target is the old `x[rs]`. -/
def execJalr (rs rd : RegIdx) (s : State) : Outcome := jumpAndLink s rd (s.getReg rs)

end Sys2Proof.Machine
end

