-- ==== Sys2Proof/Machine/LoadStore.lean ====
section
/-! DEFINITION. The load/store family and the reserved unaligned forms (45_load_store.md R140 to R155). -/

namespace Sys2Proof.Machine

/-- The address a load or store of this machine accesses (45_load_store.md R140). -/
def State.ea (s : State) (rs : RegIdx) (imm : Half) : Word := effectiveAddress (s.getReg rs) imm

/-- LB (45_load_store.md R141). -/
def execLb (rs rt : RegIdx) (imm : Half) (s : State) : Outcome :=
  loadInto s (s.ea rs imm) (.read8 (s.ea rs imm)) rt ((s.read8 (s.ea rs imm)).map fun b => b.signExtend 32)

/-- LBU (45_load_store.md R142). -/
def execLbu (rs rt : RegIdx) (imm : Half) (s : State) : Outcome :=
  loadInto s (s.ea rs imm) (.read8 (s.ea rs imm)) rt ((s.read8 (s.ea rs imm)).map fun b => b.zeroExtend 32)

/-- LH (45_load_store.md R143). -/
def execLh (rs rt : RegIdx) (imm : Half) (s : State) : Outcome :=
  loadInto s (s.ea rs imm) (.read16 (s.ea rs imm)) rt ((s.read16 (s.ea rs imm)).map fun h => h.signExtend 32)

/-- LHU (45_load_store.md R144). -/
def execLhu (rs rt : RegIdx) (imm : Half) (s : State) : Outcome :=
  loadInto s (s.ea rs imm) (.read16 (s.ea rs imm)) rt ((s.read16 (s.ea rs imm)).map fun h => h.zeroExtend 32)

/-- LW (45_load_store.md R145). -/
def execLw (rs rt : RegIdx) (imm : Half) (s : State) : Outcome :=
  loadInto s (s.ea rs imm) (.read32 (s.ea rs imm)) rt (s.read32 (s.ea rs imm))

/-- SB (45_load_store.md R146): `x[rt][7:0]`. -/
def execSb (rs rt : RegIdx) (imm : Half) (s : State) : Outcome :=
  storeTo s (s.ea rs imm) (.write8 (s.ea rs imm) ((s.getReg rt).extractLsb' 0 8))
    (s.write8 (s.ea rs imm) ((s.getReg rt).extractLsb' 0 8))

/-- SH (45_load_store.md R147): `x[rt][15:0]`. -/
def execSh (rs rt : RegIdx) (imm : Half) (s : State) : Outcome :=
  storeTo s (s.ea rs imm) (.write16 (s.ea rs imm) ((s.getReg rt).extractLsb' 0 16))
    (s.write16 (s.ea rs imm) ((s.getReg rt).extractLsb' 0 16))

/-- SW (45_load_store.md R148). -/
def execSw (rs rt : RegIdx) (imm : Half) (s : State) : Outcome :=
  storeTo s (s.ea rs imm) (.write32 (s.ea rs imm) (s.getReg rt)) (s.write32 (s.ea rs imm) (s.getReg rt))

/-- LWL (45_load_store.md R149, R150): always faults, makes no access. -/
def execLwl (rs rt : RegIdx) (imm : Half) (s : State) : Outcome :=
  faultWith s .unimplementedInstruction .unalignedLoadStore (encode (.lwl rs rt imm))

/-- LWR (45_load_store.md R149, R151). -/
def execLwr (rs rt : RegIdx) (imm : Half) (s : State) : Outcome :=
  faultWith s .unimplementedInstruction .unalignedLoadStore (encode (.lwr rs rt imm))

/-- SWL (45_load_store.md R149, R152). -/
def execSwl (rs rt : RegIdx) (imm : Half) (s : State) : Outcome :=
  faultWith s .unimplementedInstruction .unalignedLoadStore (encode (.swl rs rt imm))

/-- SWR (45_load_store.md R149, R153). -/
def execSwr (rs rt : RegIdx) (imm : Half) (s : State) : Outcome :=
  faultWith s .unimplementedInstruction .unalignedLoadStore (encode (.swr rs rt imm))

end Sys2Proof.Machine
end

