-- ==== Sys2Proof/Machine/Logical.lean ====
section
/-! DEFINITION. The logical family (43_logical.md R120 to R127). -/

namespace Sys2Proof.Machine

/-- AND (43_logical.md R121). -/
def execAnd (rs rt rd : RegIdx) (s : State) : Outcome := writeReg s rd (s.getReg rs &&& s.getReg rt)

/-- OR (43_logical.md R122). -/
def execOr (rs rt rd : RegIdx) (s : State) : Outcome := writeReg s rd (s.getReg rs ||| s.getReg rt)

/-- XOR (43_logical.md R123). -/
def execXor (rs rt rd : RegIdx) (s : State) : Outcome := writeReg s rd (s.getReg rs ^^^ s.getReg rt)

/-- NOR (43_logical.md R124). -/
def execNor (rs rt rd : RegIdx) (s : State) : Outcome := writeReg s rd (~~~(s.getReg rs ||| s.getReg rt))

/-- ANDI (43_logical.md R125). -/
def execAndi (rs rt : RegIdx) (imm : Half) (s : State) : Outcome := writeReg s rt (s.getReg rs &&& zimm imm)

/-- ORI (43_logical.md R126). -/
def execOri (rs rt : RegIdx) (imm : Half) (s : State) : Outcome := writeReg s rt (s.getReg rs ||| zimm imm)

/-- XORI (43_logical.md R127). -/
def execXori (rs rt : RegIdx) (imm : Half) (s : State) : Outcome := writeReg s rt (s.getReg rs ^^^ zimm imm)

end Sys2Proof.Machine
end

