-- ==== Sys2Proof/Machine/MulDiv.lean ====
section
/-! DEFINITION. The multiply/divide family (46_muldiv.md R160 to R169). Results are complete within the step. -/

namespace Sys2Proof.Machine

/-- The 64-bit product split across `HI` (upper) and `LO` (lower) (46_muldiv.md R161, R162). -/
def writeProduct (s : State) (p : BitVec 64) : Outcome := writeHiLo s (p.extractLsb' 32 32) (p.extractLsb' 0 32)

/-- MULT (46_muldiv.md R161): the exact signed product modulo 2^64. -/
def execMult (rs rt : RegIdx) (s : State) : Outcome :=
  writeProduct s (BitVec.ofInt 64 ((s.getReg rs).toInt * (s.getReg rt).toInt))

/-- MULTU (46_muldiv.md R162): the exact unsigned product. -/
def execMultu (rs rt : RegIdx) (s : State) : Outcome :=
  writeProduct s (BitVec.ofNat 64 ((s.getReg rs).toNat * (s.getReg rt).toNat))

/-- `LO` of DIV, dividend and divisor read signed (46_muldiv.md R163). -/
def divQuotient (a b : Word) : Word :=
  if b.toInt = 0 then (if 0 ≤ a.toInt then 0xFFFFFFFF#32 else 0x00000001#32)
  else if a = 0x80000000#32 ∧ b = 0xFFFFFFFF#32 then 0x80000000#32
  else BitVec.ofInt 32 (Int.tdiv a.toInt b.toInt)

/-- `HI` of DIV (46_muldiv.md R163): `n - q × d`, the quotient rounded toward zero. -/
def divRemainder (a b : Word) : Word :=
  if b.toInt = 0 then a
  else if a = 0x80000000#32 ∧ b = 0xFFFFFFFF#32 then 0x00000000#32
  else BitVec.ofInt 32 (a.toInt - Int.tdiv a.toInt b.toInt * b.toInt)

/-- DIV (46_muldiv.md R163). -/
def execDiv (rs rt : RegIdx) (s : State) : Outcome :=
  writeHiLo s (divRemainder (s.getReg rs) (s.getReg rt)) (divQuotient (s.getReg rs) (s.getReg rt))

/-- `LO` of DIVU (46_muldiv.md R164). -/
def divuQuotient (a b : Word) : Word := if b.toNat = 0 then 0xFFFFFFFF#32 else BitVec.ofNat 32 (a.toNat / b.toNat)

/-- `HI` of DIVU (46_muldiv.md R164). -/
def divuRemainder (a b : Word) : Word :=
  if b.toNat = 0 then a else BitVec.ofNat 32 (a.toNat - a.toNat / b.toNat * b.toNat)

/-- DIVU (46_muldiv.md R164). -/
def execDivu (rs rt : RegIdx) (s : State) : Outcome :=
  writeHiLo s (divuRemainder (s.getReg rs) (s.getReg rt)) (divuQuotient (s.getReg rs) (s.getReg rt))

/-- MFHI (46_muldiv.md R165). -/
def execMfhi (rd : RegIdx) (s : State) : Outcome := writeReg s rd s.hi

/-- MFLO (46_muldiv.md R166). -/
def execMflo (rd : RegIdx) (s : State) : Outcome := writeReg s rd s.lo

/-- MTHI (46_muldiv.md R167): `LO` is unchanged. -/
def execMthi (rs : RegIdx) (s : State) : Outcome := writeHiLo s (s.getReg rs) s.lo

/-- MTLO (46_muldiv.md R168): `HI` is unchanged. -/
def execMtlo (rs : RegIdx) (s : State) : Outcome := writeHiLo s s.hi (s.getReg rs)

end Sys2Proof.Machine
end

