-- ==== Sys2Proof/Machine/Shift.lean ====
section
/-! DEFINITION. The shift family (44_shift.md R130 to R137). The value shifted is `x[rt]`. -/

namespace Sys2Proof.Machine

/-- SLL (44_shift.md R131). -/
def execSll (rt rd : RegIdx) (shamt : BitVec 5) (s : State) : Outcome := writeReg s rd (s.getReg rt <<< shamt.toNat)

/-- SRL (44_shift.md R132). -/
def execSrl (rt rd : RegIdx) (shamt : BitVec 5) (s : State) : Outcome := writeReg s rd (s.getReg rt >>> shamt.toNat)

/-- SRA (44_shift.md R133). -/
def execSra (rt rd : RegIdx) (shamt : BitVec 5) (s : State) : Outcome :=
  writeReg s rd ((s.getReg rt).sshiftRight shamt.toNat)

/-- SLLV (44_shift.md R134). -/
def execSllv (rs rt rd : RegIdx) (s : State) : Outcome :=
  writeReg s rd (s.getReg rt <<< (shiftCount (s.getReg rs)).toNat)

/-- SRLV (44_shift.md R135). -/
def execSrlv (rs rt rd : RegIdx) (s : State) : Outcome :=
  writeReg s rd (s.getReg rt >>> (shiftCount (s.getReg rs)).toNat)

/-- SRAV (44_shift.md R136). -/
def execSrav (rs rt rd : RegIdx) (s : State) : Outcome :=
  writeReg s rd ((s.getReg rt).sshiftRight (shiftCount (s.getReg rs)).toNat)

/-- LUI (44_shift.md R137). -/
def execLui (rt : RegIdx) (imm : Half) (s : State) : Outcome := writeReg s rt (uimm imm)

end Sys2Proof.Machine
end

