-- ==== Sys2Proof/Machine/System.lean ====
section
/-! DEFINITION. The coprocessor, exception and invalid families (49_coproc_exception_invalid.md R190 to R199, R219).
Every handler here takes the fault the spec gives it, but for the coprocessor-0 moves when they are routed. -/

namespace Sys2Proof.Machine

/-- MFC0 routed to the capability: `x[rt] <- Cop0.GetRegister(rd)` (49_coproc_exception_invalid.md R219). -/
def moveFromCop0 (s : State) (rt rd : RegIdx) : Outcome :=
  .next ((s.advance.callCop0 (.getRegister rd)).setReg rt (s.cop0Get rd))

/-- MTC0 routed to the capability: `Cop0.SetRegister(rd, x[rt])` (49_coproc_exception_invalid.md R219). -/
def moveToCop0 (s : State) (rt rd : RegIdx) : Outcome :=
  .next (s.advance.callCop0 (.setRegister rd (s.getReg rt)))

/-- COP0 (49_coproc_exception_invalid.md R191, R219): MFC0 is `w[25:21] = 0`, MTC0 is `w[25:21] = 4`; both fault
unless `cop0MovesEnabled`, and every other COP0 word (RFE among them) always faults. -/
def execCop0 (sub : BitVec 5) (rt rd : RegIdx) (low : BitVec 11) (s : State) : Outcome :=
  if s.params.cop0MovesEnabled && sub == 0b00000#5 then moveFromCop0 s rt rd
  else if s.params.cop0MovesEnabled && sub == 0b00100#5 then moveToCop0 s rt rd
  else faultWith s .unimplementedInstruction .coprocessor (encode (.cop0 sub rt rd low))

/-- COP1 (49_coproc_exception_invalid.md R198): unassigned, hence `InvalidOpcode`. -/
def execCop1 (bits : BitVec 26) (s : State) : Outcome :=
  faultWith s .invalidOpcode .none (encode (.cop1 bits))

/-- COP2 (49_coproc_exception_invalid.md R192): no capability is bound, whatever the parameters. -/
def execCop2 (bits : BitVec 26) (s : State) : Outcome :=
  faultWith s .unimplementedInstruction .coprocessor (encode (.cop2 bits))

/-- COP3 (49_coproc_exception_invalid.md R198): unassigned, hence `InvalidOpcode`. -/
def execCop3 (bits : BitVec 26) (s : State) : Outcome :=
  faultWith s .invalidOpcode .none (encode (.cop3 bits))

/-- LWC0 (49_coproc_exception_invalid.md R193): no address is formed and no access made. -/
def execLwc0 (rs rt : RegIdx) (imm : Half) (s : State) : Outcome :=
  faultWith s .unimplementedInstruction .coprocessor (encode (.lwc0 rs rt imm))

/-- LWC1 (49_coproc_exception_invalid.md R193): no address is formed and no access made. -/
def execLwc1 (rs rt : RegIdx) (imm : Half) (s : State) : Outcome :=
  faultWith s .unimplementedInstruction .coprocessor (encode (.lwc1 rs rt imm))

/-- LWC2 (49_coproc_exception_invalid.md R193): no address is formed and no access made. -/
def execLwc2 (rs rt : RegIdx) (imm : Half) (s : State) : Outcome :=
  faultWith s .unimplementedInstruction .coprocessor (encode (.lwc2 rs rt imm))

/-- LWC3 (49_coproc_exception_invalid.md R193): no address is formed and no access made. -/
def execLwc3 (rs rt : RegIdx) (imm : Half) (s : State) : Outcome :=
  faultWith s .unimplementedInstruction .coprocessor (encode (.lwc3 rs rt imm))

/-- SWC0 (49_coproc_exception_invalid.md R194): no address is formed and no access made. -/
def execSwc0 (rs rt : RegIdx) (imm : Half) (s : State) : Outcome :=
  faultWith s .unimplementedInstruction .coprocessor (encode (.swc0 rs rt imm))

/-- SWC1 (49_coproc_exception_invalid.md R194): no address is formed and no access made. -/
def execSwc1 (rs rt : RegIdx) (imm : Half) (s : State) : Outcome :=
  faultWith s .unimplementedInstruction .coprocessor (encode (.swc1 rs rt imm))

/-- SWC2 (49_coproc_exception_invalid.md R194): no address is formed and no access made. -/
def execSwc2 (rs rt : RegIdx) (imm : Half) (s : State) : Outcome :=
  faultWith s .unimplementedInstruction .coprocessor (encode (.swc2 rs rt imm))

/-- SWC3 (49_coproc_exception_invalid.md R194): no address is formed and no access made. -/
def execSwc3 (rs rt : RegIdx) (imm : Half) (s : State) : Outcome :=
  faultWith s .unimplementedInstruction .coprocessor (encode (.swc3 rs rt imm))

/-- SYSCALL (49_coproc_exception_invalid.md R195): no exception is delivered, the fault is latched. -/
def execSyscall (code : BitVec 20) (s : State) : Outcome :=
  faultWith s .unimplementedInstruction .syscall (encode (.syscall code))

/-- BREAK (49_coproc_exception_invalid.md R196). -/
def execBrk (code : BitVec 20) (s : State) : Outcome :=
  faultWith s .unimplementedInstruction .brk (encode (.brk code))

/-- INVALID_SPECIAL (49_coproc_exception_invalid.md R197): an unassigned function code. -/
def execInvalidSpecial (bits : BitVec 20) (funct : BitVec 6) (s : State) : Outcome :=
  faultWith s .invalidOpcode .none (encode (.invalidSpecial bits funct))

/-- INVALID (49_coproc_exception_invalid.md R197): an unassigned primary opcode. -/
def execInvalid (op : BitVec 6) (bits : BitVec 26) (s : State) : Outcome :=
  faultWith s .invalidOpcode .none (encode (.invalid op bits))

end Sys2Proof.Machine
end

