-- ==== Sys2Proof/Machine/Step.lean ====
section
/-! DEFINITION. The one transition of the machine (40_step_dispatch.md R80). -/

namespace Sys2Proof.Machine

/-- One step: a halted core has none (40_step_dispatch.md R92); the word at `pc` is fetched (R81), or the step does
not exist if the accessor refuses (20_memory.md R57); the pair advances and the handler the word selects executes
(R82 to R86), both in `exec` (log 8). -/
def step (s : State) : Host.Outcome State Fault Refusal :=
  match s.fault with
  | some r => .fault (.halted r)
  | none =>
    match s.fetch with
    | none => .fault (.fetchRefused s.pc)
    | some w => exec (decode w) s.fetched

/-- `s` with the word `tableWord nbits w` where `step` fetches its next instruction: the four bytes at `pc`, or, for a bound
accessor, a `write32` there that its next read must give back (20_memory.md R56; log 9). -/
def State.withFetchWord (s : State) (nbits w : Nat) : State :=
  match s.params.mem with
  | .flatLE => s.setMem (s.mem.writeWord s.pc (tableWord nbits w))
  | .bound _ => s.receive (.call (.write32 s.pc (tableWord nbits w)))

end Sys2Proof.Machine
end

