-- ==== Sys2Proof/Machine/HostOps.lean ====
section
/-! DEFINITION. What the host may do to the core between runs, and Run itself (70_reset_and_hazards.md R200 to R210).
`hostReset` stands in Ops.lean, beside the fault it clears. -/

namespace Sys2Proof.Machine

/-- Configuration (70_reset_and_hazards.md R206): the parameters the host chooses, the accessor among them, and the launch
contents of `FlatLE`. The core it yields is at power-on, equal to the state after Reset (R252). -/
def State.configured (p : Config.Params) (m : Memory) : State := { State.reset with params := p, mem := m }

/-- `Run(n)` (70_reset_and_hazards.md R202): a halted core performs no step; else `n` steps, or up to and including the
first that faults. What Run returns is the latch of the state it ends in. If an accessor refuses, Run ends nowhere: the
core is stuck (20_memory.md R57). -/
def run : Nat → State → Outcome
  | 0, s => .next s
  | n + 1, s =>
    match s.fault with
    | some _ => .next s
    | none =>
      match step s with
      | .next t => run n t
      | .fault r => .fault r
      | .refused r => .refused r

/-- `SetProgramCounter(a)` (70_reset_and_hazards.md R204): unchecked, and the latch stays. -/
def setProgramCounter (a : Word) (s : State) : State := { s with pc := a, nextPC := a + 4#32 }

/-- The state accessor's `SetRegister(i, v)` (70_reset_and_hazards.md R205). -/
def hostSetRegister (i : RegIdx) (v : Word) (s : State) : State := s.setReg i v

/-- A direct write of `HI` by the host (70_reset_and_hazards.md R205). -/
def hostSetHi (v : Word) (s : State) : State := s.setHiLo v s.lo

/-- A direct write of `LO` by the host (70_reset_and_hazards.md R205). -/
def hostSetLo (v : Word) (s : State) : State := s.setHiLo s.hi v

/-- A byte of memory written by the host through its own means (70_reset_and_hazards.md R210): a byte of `FlatLE`, or an
event at the backing of a bound accessor. -/
def hostWriteByte (a : Word) (v : Byte) (s : State) : State :=
  match s.params.mem with
  | .flatLE => s.setMem (s.mem.writeByte a v)
  | .bound _ => s.receive (.hostByte a v)

/-- A move of the host between runs (70_reset_and_hazards.md R210). -/
inductive HostOp where
  | run (n : Nat)
  | reset
  | setProgramCounter (a : Word)
  | setRegister (i : RegIdx) (v : Word)
  | setHi (v : Word)
  | setLo (v : Word)
  | writeByte (a : Word) (v : Byte)
  deriving DecidableEq, Repr

/-- The effect of a move of the host. -/
def applyHostOp (o : HostOp) (s : State) : Outcome :=
  match o with
  | .run n => run n s
  | .reset => .next (hostReset s)
  | .setProgramCounter a => .next (setProgramCounter a s)
  | .setRegister i v => .next (hostSetRegister i v s)
  | .setHi v => .next (hostSetHi v s)
  | .setLo v => .next (hostSetLo v s)
  | .writeByte a v => .next (hostWriteByte a v s)

end Sys2Proof.Machine
end

