-- ==== Sys2Proof/Safety.lean ====
section
/-! DEFINITION. What counts as a well-kept state and a safe run: the terms the statements use. -/

namespace Sys2Proof.Machine

/-- The pairs of 60_exceptions.md R220, by the instruction whose word raises them. `none`: the instruction never
faults. COP0 and the three overflowing instructions fault only under the parameters that say so. -/
def faultOf : Instr → Option (FaultKind × FaultCause)
  | .lwl .. | .lwr .. | .swl .. | .swr .. => some (.unimplementedInstruction, .unalignedLoadStore)
  | .cop0 .. | .cop2 _ | .lwc0 .. | .lwc1 .. | .lwc2 .. | .lwc3 .. | .swc0 .. | .swc1 .. | .swc2 .. | .swc3 .. =>
    some (.unimplementedInstruction, .coprocessor)
  | .syscall _ => some (.unimplementedInstruction, .syscall)
  | .brk _ => some (.unimplementedInstruction, .brk)
  | .cop1 _ | .cop3 _ | .invalidSpecial .. | .invalid .. => some (.invalidOpcode, .none)
  | .add .. | .addi .. | .sub .. => some (.arithmeticOverflow, .overflow)
  | .sll .. | .srl .. | .sra .. | .sllv .. | .srlv .. | .srav .. | .jr .. | .jalr .. | .mfhi .. | .mthi .. | .mflo ..
  | .mtlo .. | .mult .. | .multu .. | .div .. | .divu .. | .addu .. | .subu .. | .and .. | .or .. | .xor .. | .nor ..
  | .slt .. | .sltu .. | .bltzal .. | .bgezal .. | .bltz .. | .bgez .. | .j _ | .jal _ | .beq .. | .bne .. | .blez ..
  | .bgtz .. | .addiu .. | .slti .. | .sltiu .. | .andi .. | .ori .. | .xori .. | .lui .. | .lb .. | .lh .. | .lw ..
  | .lbu .. | .lhu .. | .sb .. | .sh .. | .sw .. => none

/-- The record's kind and cause are those of its word (60_exceptions.md R221: `cause` "is a function of `w`"). -/
def FaultRecord.ofItsWord (r : FaultRecord) : Bool := faultOf (decode r.word) == some (r.kind, r.cause)

/-- What every step and every move of the host keeps: memory in its canonical form, the stored `x[0]` zero
(10_state.md R21), and a latched record that is one of the closed set of 60_exceptions.md R220. -/
def State.Inv (s : State) : Prop :=
  s.mem.wf = true ∧ s.gpr[0] = 0#32 ∧ ∀ r, s.fault = some r → r.ofItsWord = true

/-- `pc` and `nextPC` are multiples of 4 (10_state.md R28). -/
def State.pairAligned (s : State) : Prop := alignedWord s.pc = true ∧ alignedWord s.nextPC = true

/-- The core is halted (10_state.md R33). -/
def State.halted (s : State) : Prop := s.fault ≠ none

/-- The core is stuck: an accessor call of its next step refuses, so that step does not exist (20_memory.md R57). -/
def State.stuck (s : State) : Prop := ∃ a, step s = .fault (.fetchRefused a) ∨ step s = .fault (.dataRefused a)

/-- The states the host can bring a configured core to (70_reset_and_hazards.md R210). -/
inductive Reachable : State → Prop where
  | configured (p : Config.Params) (m : Memory) (hm : m.wf = true) : Reachable (State.configured p m)
  | host (s t : State) (o : HostOp) (hs : Reachable s) (h : applyHostOp o s = .next t) : Reachable t

end Sys2Proof.Machine
end

