-- ==== Sys2Proof/Certificates/Slice0/Obligations.lean ====
section
/-! DEFINITION. The statements for the provers. The terms they are written in come first: the fields of a word and the
formulas of the rules are written out here from the rules, not taken from the model. -/

namespace Sys2Proof.Statements

open Sys2Proof.Machine

/-! ## The fields of a word (30_encoding.md R61 to R63) -/

abbrev op (w : Word) : BitVec 6 := w.extractLsb' 26 6
abbrev rs (w : Word) : RegIdx := w.extractLsb' 21 5
abbrev rt (w : Word) : RegIdx := w.extractLsb' 16 5
abbrev rd (w : Word) : RegIdx := w.extractLsb' 11 5
abbrev shamt (w : Word) : BitVec 5 := w.extractLsb' 6 5
abbrev funct (w : Word) : BitVec 6 := w.extractLsb' 0 6
abbrev imm (w : Word) : Half := w.extractLsb' 0 16
abbrev target (w : Word) : BitVec 26 := w.extractLsb' 0 26

/-- Every word with `op = 0` and this function code decodes to this instruction, whatever its other bits. -/
def specialWord (f : BitVec 6) (c : RegIdx → RegIdx → RegIdx → BitVec 5 → Instr) : Prop :=
  ∀ w : Word, op w = 0x00#6 → funct w = f → decode w = c (rs w) (rt w) (rd w) (shamt w)

/-- Every word with this primary opcode decodes to this instruction of the immediate form. -/
def immediateWord (o : BitVec 6) (c : RegIdx → RegIdx → Half → Instr) : Prop :=
  ∀ w : Word, op w = o → decode w = c (rs w) (rt w) (imm w)

/-! ## Frames -/

/-- Every byte of `FlatLE` reads as before. -/
def sameBytes (s t : State) : Prop := ∀ a : Word, t.mem.byteAt a = s.mem.byteAt a

/-- Memory is as before, whatever the accessor: every byte of `FlatLE`, and what a bound accessor's backing has
received. -/
def sameMemory (s t : State) : Prop := sameBytes s t ∧ t.backing = s.backing

/-- The accessor is the spec's default (00_scope.md R6). -/
def onFlatLE (s : State) : Prop := s.params.mem = .flatLE

/-- What a bound accessor's backing has received after this call, newest first; `FlatLE` keeps no such list (log 10). -/
def backingAfter (s : State) (c : Config.MemCall) : List Config.BackingEvent :=
  match s.params.mem with
  | .flatLE => s.backing
  | .bound _ => .call c :: s.backing

/-- Every general register reads as before. -/
def sameRegs (s t : State) : Prop := ∀ r : RegIdx, t.getReg r = s.getReg r

/-- Register `d` reads `v`, unless it is register 0; every other register reads as before. -/
def writesOnly (s t : State) (d : RegIdx) (v : Word) : Prop :=
  ∀ r : RegIdx, t.getReg r = if r = d ∧ r ≠ 0#5 then v else s.getReg r

/-- The pair advances and nothing overwrites it (40_step_dispatch.md R82). -/
def sequential (s t : State) : Prop := t.pc = s.nextPC ∧ t.nextPC = s.nextPC + 4#32

/-- The coprocessor-0 capability and the parameters are as before. -/
def sameHost (s t : State) : Prop := t.cop0 = s.cop0 ∧ t.params = s.params

/-- The outcome is a next state in which `x[d]` is `v`, the pair has advanced, and all else is as in `s`. -/
def RegResult (o : Outcome) (s : State) (d : RegIdx) (v : Word) : Prop :=
  ∃ t, o = .next t ∧ writesOnly s t d v ∧ sequential s t ∧ t.hi = s.hi ∧ t.lo = s.lo ∧ t.fault = s.fault ∧
    sameMemory s t ∧ sameHost s t

/-- As `RegResult`, for a load, which has made this call of the accessor: no byte changes, and the call has reached a bound
accessor's backing. -/
def LoadResult (o : Outcome) (s : State) (c : Config.MemCall) (d : RegIdx) (v : Word) : Prop :=
  ∃ t, o = .next t ∧ writesOnly s t d v ∧ sequential s t ∧ t.hi = s.hi ∧ t.lo = s.lo ∧ t.fault = s.fault ∧
    sameBytes s t ∧ t.backing = backingAfter s c ∧ sameHost s t

/-- The outcome is a next state in which `HI` is `h` and `LO` is `l`, the pair has advanced, and all else is as in
`s`. -/
def HiLoResult (o : Outcome) (s : State) (h l : Word) : Prop :=
  ∃ t, o = .next t ∧ sameRegs s t ∧ sequential s t ∧ t.hi = h ∧ t.lo = l ∧ t.fault = s.fault ∧ sameMemory s t ∧
    sameHost s t

/-- The outcome is a next state with `pc` advanced, `nextPC` at `a`, and all else as in `s`. -/
def JumpResult (o : Outcome) (s : State) (a : Word) : Prop :=
  ∃ t, o = .next t ∧ sameRegs s t ∧ t.pc = s.nextPC ∧ t.nextPC = a ∧ t.hi = s.hi ∧ t.lo = s.lo ∧ t.fault = s.fault ∧
    sameMemory s t ∧ sameHost s t

/-- As `JumpResult`, with the link, the advanced `pc` plus 4, in register `d`. -/
def LinkResult (o : Outcome) (s : State) (d : RegIdx) (a : Word) : Prop :=
  ∃ t, o = .next t ∧ writesOnly s t d (s.nextPC + 4#32) ∧ t.pc = s.nextPC ∧ t.nextPC = a ∧ t.hi = s.hi ∧
    t.lo = s.lo ∧ t.fault = s.fault ∧ sameMemory s t ∧ sameHost s t

/-- The outcome is a next state in which the byte of `FlatLE` at every address `x` is `byte x`, this call has reached a
bound accessor's backing, the pair has advanced, and all else is as in `s`. -/
def StoreResult (o : Outcome) (s : State) (c : Config.MemCall) (byte : Word → Byte) : Prop :=
  ∃ t, o = .next t ∧ (∀ x : Word, t.mem.byteAt x = byte x) ∧ t.backing = backingAfter s c ∧ sameRegs s t ∧
    sequential s t ∧ t.hi = s.hi ∧ t.lo = s.lo ∧ t.fault = s.fault ∧ sameHost s t

/-- The outcome is the next state that taking a fault leaves: the record is latched, with the address of the fetch and
the word, the pair has advanced, and all else is as in `s`: the handler calls neither port (60_exceptions.md R222). -/
def FaultEntry (o : Outcome) (s : State) (k : FaultKind) (c : FaultCause) (w : Word) : Prop :=
  ∃ t, o = .next t ∧ t.fault = some ⟨k, c, s.pc, w⟩ ∧ sequential s t ∧ sameRegs s t ∧ t.hi = s.hi ∧ t.lo = s.lo ∧
    sameMemory s t ∧ sameHost s t ∧ t.portCalls = s.portCalls

/-- Every word with this primary opcode is this instruction, and it takes this fault in every state. -/
def immediateWordFaults (o : BitVec 6) (i : RegIdx → RegIdx → Half → Instr) (k : FaultKind) (c : FaultCause) : Prop :=
  ∀ (w : Word) (s : State), op w = o →
    decode w = i (rs w) (rt w) (imm w) ∧ FaultEntry (exec (i (rs w) (rt w) (imm w)) s) s k c w

/-! ## Formulas of the rules -/

/-- `x[rs] + sext_32(imm)` modulo 2^32 (45_load_store.md R140). -/
def ea (s : State) (base : RegIdx) (off : Half) : Word := s.getReg base + off.signExtend 32

/-- `FlatLE` is bound and performs an access of `n` bytes at `a`: it is aligned, or the policy is `bytewise`
(20_memory.md R45). -/
def accepted (s : State) (n : Nat) (a : Word) : Prop :=
  onFlatLE s ∧ (s.params.misalignedPolicy = .bytewise ∨ a.toNat % n = 0)

/-- The address of a call. -/
def address : Config.MemCall → Word
  | .read8 a | .read16 a | .read32 a | .write8 a _ | .write16 a _ | .write32 a _ => a

/-- The width of a call in bytes (20_memory.md R41). -/
def width : Config.MemCall → Nat
  | .read8 _ | .write8 .. => 1
  | .read16 _ | .write16 .. => 2
  | .read32 _ | .write32 .. => 4

/-- The accessor performs a call: `FlatLE` all but a misaligned one under the policy `refuse` (20_memory.md R45, R57);
another accessor those it has an answer for, which is its own (log 10). -/
def performs (s : State) (c : Config.MemCall) : Bool :=
  match s.params.mem with
  | .flatLE => s.params.misalignedPolicy == .bytewise || (address c).toNat % width c == 0
  | .bound _ =>
    match c with
    | .read8 a => (s.read8 a).isSome
    | .read16 a => (s.read16 a).isSome
    | .read32 a => (s.read32 a).isSome
    | .write8 a v => (s.write8 a v).isSome
    | .write16 a v => (s.write16 a v).isSome
    | .write32 a v => (s.write32 a v).isSome

/-- `pc + sext_32(imm) × 4` modulo 2^32, with the advanced `pc` (48_branch.md R180). -/
def branchTarget (s : State) (off : Half) : Word := s.nextPC + off.signExtend 32 * 4#32

/-- `pc[31:28] || target || 0b00`, with the advanced `pc` (47_jump.md R170). -/
def jumpTarget (s : State) (t : BitVec 26) : Word := s.nextPC.extractLsb' 28 4 ++ t ++ 0#2

/-- The integer is the value of a signed 32-bit pattern. -/
def fitsSigned (v : Int) : Prop := -2 ^ 31 ≤ v ∧ v < 2 ^ 31

/-- The exact signed sum or difference an ADD, ADDI or SUB computes (60_exceptions.md R236). -/
def exactResult (i : Instr) (s : State) : Option Int :=
  match i with
  | .add a b _ _ => some ((s.getReg a).toInt + (s.getReg b).toInt)
  | .addi a _ k => some ((s.getReg a).toInt + k.toInt)
  | .sub a b _ _ => some ((s.getReg a).toInt - (s.getReg b).toInt)
  | _ => none

/-- Where an instruction fetched in `s` transfers control, if it does: J, JAL, JR, JALR and taken branches
(10_state.md R26, 47_jump.md R170, 48_branch.md R180, R189). -/
def transferTarget (i : Instr) (s : State) : Option Word :=
  match i with
  | .j t => some (jumpTarget s t)
  | .jal t => some (jumpTarget s t)
  | .jr a _ _ _ => some (s.getReg a)
  | .jalr a _ _ _ => some (s.getReg a)
  | .beq a b k => if s.getReg a = s.getReg b then some (branchTarget s k) else none
  | .bne a b k => if s.getReg a ≠ s.getReg b then some (branchTarget s k) else none
  | .blez a _ k => if (s.getReg a).toInt ≤ 0 then some (branchTarget s k) else none
  | .bgtz a _ k => if 0 < (s.getReg a).toInt then some (branchTarget s k) else none
  | .bltz a _ k => if (s.getReg a).toInt < 0 then some (branchTarget s k) else none
  | .bgez a _ k => if 0 ≤ (s.getReg a).toInt then some (branchTarget s k) else none
  | .bltzal a k => if (s.getReg a).toInt < 0 then some (branchTarget s k) else none
  | .bgezal a k => if 0 ≤ (s.getReg a).toInt then some (branchTarget s k) else none
  | _ => none

/-- Where control goes after the next instruction: the transfer's target, else the advanced `nextPC`
(10_state.md R26). -/
def followingPC (i : Instr) (s : State) : Word := (transferTarget i s).getD (s.nextPC + 4#32)

/-- The fault an instruction raises in a state, by the table of 60_exceptions.md R220, its column "when" included. -/
def raises (i : Instr) (s : State) : Option (FaultKind × FaultCause) :=
  match i with
  | .lwl .. | .lwr .. | .swl .. | .swr .. => some (.unimplementedInstruction, .unalignedLoadStore)
  | .cop0 sub _ _ _ =>
    if s.params.cop0MovesEnabled = true ∧ (sub = 0#5 ∨ sub = 4#5) then none
    else some (.unimplementedInstruction, .coprocessor)
  | .cop2 _ | .lwc0 .. | .lwc1 .. | .lwc2 .. | .lwc3 .. | .swc0 .. | .swc1 .. | .swc2 .. | .swc3 .. =>
    some (.unimplementedInstruction, .coprocessor)
  | .syscall _ => some (.unimplementedInstruction, .syscall)
  | .brk _ => some (.unimplementedInstruction, .brk)
  | .cop1 _ | .cop3 _ | .invalidSpecial .. | .invalid .. => some (.invalidOpcode, .none)
  | .add .. | .addi .. | .sub .. =>
    match exactResult i s with
    | some v =>
      if s.params.trapOnOverflow = true ∧ (v < -2 ^ 31 ∨ 2 ^ 31 ≤ v) then some (.arithmeticOverflow, .overflow)
      else none
    | none => none
  | _ => none

/-- The data access of an instruction, if it makes one (20_memory.md R48). -/
def dataAccess (i : Instr) (s : State) : Option Config.MemCall :=
  match i with
  | .lb a _ k | .lbu a _ k => some (.read8 (ea s a k))
  | .lh a _ k | .lhu a _ k => some (.read16 (ea s a k))
  | .lw a _ k => some (.read32 (ea s a k))
  | .sb a b k => some (.write8 (ea s a k) ((s.getReg b).extractLsb' 0 8))
  | .sh a b k => some (.write16 (ea s a k) ((s.getReg b).extractLsb' 0 16))
  | .sw a b k => some (.write32 (ea s a k) (s.getReg b))
  | _ => none

/-- The calls an instruction makes after its fetch: the data access, or the coprocessor-0 call of
49_coproc_exception_invalid.md R219. -/
def dataCalls (i : Instr) (s : State) : List PortCall :=
  match i with
  | .cop0 sub b d _ =>
    if s.params.cop0MovesEnabled = true then
      if sub = 0#5 then [.cop0 (.getRegister d)]
      else if sub = 4#5 then [.cop0 (.setRegister d (s.getReg b))]
      else []
    else []
  | _ => ((dataAccess i s).map .mem).toList

/-- The general register an instruction may write (10_state.md R20, R22): `rd` of the register forms, `rt` of the
immediate forms, the loads and MFC0, `x[31]` of JAL, BLTZAL and BGEZAL. -/
def destination (i : Instr) : Option RegIdx :=
  match i with
  | .sll _ _ d _ | .srl _ _ d _ | .sra _ _ d _ | .sllv _ _ d _ | .srlv _ _ d _ | .srav _ _ d _ | .jalr _ _ d _
  | .mfhi _ _ d _ | .mflo _ _ d _ | .add _ _ d _ | .addu _ _ d _ | .sub _ _ d _ | .subu _ _ d _ | .and _ _ d _
  | .or _ _ d _ | .xor _ _ d _ | .nor _ _ d _ | .slt _ _ d _ | .sltu _ _ d _ => some d
  | .addi _ d _ | .addiu _ d _ | .slti _ d _ | .sltiu _ d _ | .andi _ d _ | .ori _ d _ | .xori _ d _ | .lui _ d _
  | .lb _ d _ | .lh _ d _ | .lw _ d _ | .lbu _ d _ | .lhu _ d _ => some d
  | .cop0 sub d _ _ => if sub = 0#5 then some d else none
  | .jal _ | .bltzal .. | .bgezal .. => some 31#5
  | _ => none

/-- The address of the data access of an instruction that the accessor refuses in the state at the handler, if any
(20_memory.md R57). -/
def refusedAccess (i : Instr) (s : State) : Option Word :=
  match dataAccess i s with
  | some c => if performs s c then none else some (address c)
  | none => none

/-- SB, SH and SW (20_memory.md R48). -/
def isStore : Instr → Prop
  | .sb .. | .sh .. | .sw .. => True
  | _ => False

/-- The unassigned primary opcodes, as 30_encoding.md R69 lists them. -/
def unassignedOpcode (o : BitVec 6) : Prop :=
  o = 0x11#6 ∨ o = 0x13#6 ∨ (0x14#6 ≤ o ∧ o ≤ 0x1F#6) ∨ o = 0x27#6 ∨ o = 0x2C#6 ∨ o = 0x2D#6 ∨ o = 0x2F#6 ∨
    (0x34#6 ≤ o ∧ o ≤ 0x37#6) ∨ 0x3C#6 ≤ o

/-- The unassigned function codes, as 49_coproc_exception_invalid.md R197 lists them. -/
def unassignedFunct (f : BitVec 6) : Prop :=
  f = 0x01#6 ∨ f = 0x05#6 ∨ f = 0x0A#6 ∨ f = 0x0B#6 ∨ f = 0x0E#6 ∨ f = 0x0F#6 ∨ (0x14#6 ≤ f ∧ f ≤ 0x17#6) ∨
    (0x1C#6 ≤ f ∧ f ≤ 0x1F#6) ∨ f = 0x28#6 ∨ f = 0x29#6 ∨ 0x2C#6 ≤ f

/-- The word the fetch at `pc` gives (0, which no statement rests on, where the accessor refuses), and the instruction it
selects. On `FlatLE` it is the word at `pc`. -/
def wordAtPC (s : State) : Word := s.fetch.getD 0#32

def instrAtPC (s : State) : Instr := decode (wordAtPC s)

end Sys2Proof.Statements

section Rules

open Sys2Proof Sys2Proof.Statements Sys2Proof.Machine

/-! ## Encoding (30_encoding.md) -/

/-- Decoding and encoding agree: every well-formed instruction is read back from its word, every field included, the
ignored ones too (log 7). -/
def Obligations.DecodeReadsBackEveryEncoding : Prop :=
  ∀ i : Instr, i.wellFormed = true → decode (encode i) = i

/-- Every one of the 2^32 words decodes to a well-formed instruction, and that instruction determines the word: no bit
is dropped (log 7). -/
def Obligations.EncodeRestoresEveryWord : Prop :=
  ∀ w : Word, (decode w).wellFormed = true ∧ encode (decode w) = w

/-- The first row of spec/opcode_table.json that matches a word is the row of the instruction the dispatch of
30_encoding.md R66 to R68 selects (the spec's own derivation, R71). -/
def Obligations.FirstMatchingRowIsTheHandler : Prop :=
  ∀ w : Word, (firstMatch w).map (fun r => r.mnemonic) = some (decode w).mnemonic

/-- The 2-bit selector of the conditional-branch-and-link group, for all 32 values of `rt` (40_step_dispatch.md R85). -/
def Obligations.ConditionalBranchSelector : Prop :=
  ∀ w : Word, op w = 0x01#6 →
    decode w =
      if (rt w).toNat / 2 = 8 then
        (if (rt w).toNat % 2 = 1 then .bgezal (rs w) (imm w) else .bltzal (rs w) (imm w))
      else (if (rt w).toNat % 2 = 1 then .bgez (rs w) (rt w) (imm w) else .bltz (rs w) (rt w) (imm w))

/-- A word faults as `InvalidOpcode` exactly when its primary opcode is one of the 26 unassigned ones, or its primary
opcode is 0 and its function code is one of the 36 unassigned ones (30_encoding.md R69). -/
def Obligations.InvalidWordsAreTheUnassignedOnes : Prop :=
  ∀ (w : Word) (s : State), s.fault = none →
    ((unassignedOpcode (op w) ∨ (op w = 0x00#6 ∧ unassignedFunct (funct w))) ↔
      ∃ (t : State) (r : FaultRecord), exec (decode w) s = .next t ∧ t.fault = some r ∧ r.kind = .invalidOpcode)

/-- Words written out in 95_test_vectors.md decode to the instructions they stand for: one of every family. -/
def Obligations.WordsOfTheSpecDecode : Prop :=
  decode 0x00221821#32 = .addu 1#5 2#5 3#5 0#5 ∧ decode 0x2422FFFF#32 = .addiu 1#5 2#5 0xFFFF#16 ∧
    decode 0x2C22FFFF#32 = .sltiu 1#5 2#5 0xFFFF#16 ∧ decode 0x00221827#32 = .nor 1#5 2#5 3#5 0#5 ∧
    decode 0x00021903#32 = .sra 0#5 2#5 3#5 4#5 ∧ decode 0x3C080013#32 = .lui 0#5 8#5 0x0013#16 ∧
    decode 0x8C22FFFC#32 = .lw 1#5 2#5 0xFFFC#16 ∧ decode 0xA4220004#32 = .sh 1#5 2#5 4#16 ∧
    decode 0x0022001A#32 = .div 1#5 2#5 0#5 0#5 ∧ decode 0x0C000800#32 = .jal 0x0000800#26 ∧
    decode 0x1422FFFE#32 = .bne 1#5 2#5 0xFFFE#16 ∧ decode 0x04310003#32 = .bgezal 1#5 3#16 ∧
    decode 0x40026000#32 = .cop0 0#5 2#5 12#5 0#11 ∧ decode 0x03FFFFCC#32 = .syscall 0xFFFFF#20 ∧
    decode 0x00000001#32 = .invalidSpecial 0#20 0x01#6 ∧ decode 0xFC000000#32 = .invalid 0x3F#6 0#26

/-! ## Memory (20_memory.md) -/

/-- On `FlatLE` the byte at the lowest address is the least significant, for halfwords, words and the instruction fetch; the
word 0x3C080013 lies in memory as 13 00 08 3C (20_memory.md R42). The fetch is the 32-bit read at `pc`, whatever the
accessor. -/
def Obligations.BytesAreLittleEndian : Prop :=
  (∀ (s : State) (a : Word), accepted s 2 a → s.read16 a = some (s.mem.byteAt (a + 1#32) ++ s.mem.byteAt a)) ∧
    (∀ (s : State) (a : Word), accepted s 4 a →
      s.read32 a = some (s.mem.byteAt (a + 3#32) ++ s.mem.byteAt (a + 2#32) ++ s.mem.byteAt (a + 1#32) ++
        s.mem.byteAt a)) ∧
    (∀ (s : State) (a : Word), onFlatLE s → s.read8 a = some (s.mem.byteAt a)) ∧
    (∀ s : State, s.fetch = s.read32 s.pc) ∧
    ∀ (s : State) (a : Word), s.mem.wf = true → accepted s 4 a →
      ∃ m, s.write32 a 0x3C080013#32 = some m ∧ m.byteAt a = 0x13#8 ∧ m.byteAt (a + 1#32) = 0x00#8 ∧
        m.byteAt (a + 2#32) = 0x08#8 ∧ m.byteAt (a + 3#32) = 0x3C#8

/-- A write and then a read of the same width at an aligned address gives the value written, on every accessor: one that
performs the write answers the read that follows with the value. `FlatLE` performs every aligned write and stores it
little-endian (20_memory.md R56; that the read follows with no call between is log 12). -/
def Obligations.WriteThenReadGivesTheValue : Prop :=
  ∀ (s : State) (a : Word), s.mem.wf = true →
    (∀ (v : Byte) (m : Memory), s.write8 a v = some m →
      ((s.callMem (.write8 a v)).setMem m).read8 a = some v) ∧
    (a.toNat % 2 = 0 → ∀ (v : Half) (m : Memory), s.write16 a v = some m →
      ((s.callMem (.write16 a v)).setMem m).read16 a = some v) ∧
    (a.toNat % 4 = 0 → ∀ (v : Word) (m : Memory), s.write32 a v = some m →
      ((s.callMem (.write32 a v)).setMem m).read32 a = some v) ∧
    (onFlatLE s → (∀ v : Byte, ∃ m, s.write8 a v = some m ∧ m.byteAt a = v) ∧
      (a.toNat % 2 = 0 → ∀ v : Half, ∃ m, s.write16 a v = some m ∧
        m.byteAt (a + 1#32) ++ m.byteAt a = v) ∧
      (a.toNat % 4 = 0 → ∀ v : Word, ∃ m, s.write32 a v = some m ∧
        m.byteAt (a + 3#32) ++ m.byteAt (a + 2#32) ++ m.byteAt (a + 1#32) ++ m.byteAt a = v))

/-- On `FlatLE`, after a wide write the narrower reads see its parts, and a narrow write changes only its own bytes (the spec's own
derivation, 20_memory.md R43). -/
def Obligations.MixedWidthViewOfMemory : Prop :=
  ∀ (s : State) (a : Word), onFlatLE s → s.mem.wf = true →
    (a.toNat % 4 = 0 → ∀ v : Word, ∃ m, s.write32 a v = some m ∧
      (s.setMem m).read8 a = some (v.extractLsb' 0 8) ∧ (s.setMem m).read8 (a + 1#32) = some (v.extractLsb' 8 8) ∧
      (s.setMem m).read8 (a + 2#32) = some (v.extractLsb' 16 8) ∧
      (s.setMem m).read8 (a + 3#32) = some (v.extractLsb' 24 8) ∧
      (s.setMem m).read16 a = some (v.extractLsb' 0 16) ∧
      (s.setMem m).read16 (a + 2#32) = some (v.extractLsb' 16 16)) ∧
    (a.toNat % 2 = 0 → ∀ h : Half, ∃ m, s.write16 a h = some m ∧ (s.setMem m).read8 a = some (h.extractLsb' 0 8) ∧
      (s.setMem m).read8 (a + 1#32) = some (h.extractLsb' 8 8) ∧
      ∀ x : Word, x ≠ a → x ≠ a + 1#32 → m.byteAt x = s.mem.byteAt x) ∧
    ∀ b : Byte, ∃ m, s.write8 a b = some m ∧ ∀ x : Word, x ≠ a → m.byteAt x = s.mem.byteAt x

/-- A word stored where the next fetch reads is the word fetched, and a 32-bit read at its address gives it (the spec's own
derivation, 20_memory.md R54): on `FlatLE` at every address, on another accessor at every aligned one (log 12). -/
def Obligations.NextFetchSeesTheStore : Prop :=
  ∀ (s t : State) (a b : RegIdx) (k : Half), s.mem.wf = true → onFlatLE s ∨ (ea s a k).toNat % 4 = 0 →
    exec (.sw a b k) s = .next t →
      (t.pc = ea s a k → t.fetch = some (s.getReg b)) ∧ t.read32 (ea s a k) = some (s.getReg b)

/-! ## The step (40_step_dispatch.md) -/

/-- A step fetches the word at `pc` and runs the instruction it is, at the state of the fetch; the handler advances the
pair (log 8). `State.fetched` records the fetch, as the step's first port call and at a bound accessor's backing, and
changes nothing else. -/
def Obligations.StepRunsTheDecodedInstruction : Prop :=
  (∀ (s : State) (w : Word), s.fault = none → s.fetch = some w → step s = exec (decode w) s.fetched) ∧
    (∀ (s : State) (i : Instr), s.fault = none → i.wellFormed = true → s.fetch = some (encode i) →
      step s = exec i s.fetched) ∧
    (∀ s : State, accepted s 4 s.pc → s.fetch = some (s.mem.wordAt s.pc)) ∧
    ∀ s : State, s.fetched =
      { s with backing := backingAfter s (.read32 s.pc), portCalls := [.mem (.read32 s.pc)] }

/-- `withFetchWord` makes the very next step run the word it is given, on `FlatLE` wherever it performs the fetch and on
another accessor at an aligned `pc` (log 9). -/
def Obligations.WithFetchWordRunsTheWord : Prop :=
  ∀ (s : State) (nbits w : Nat), s.fault = none → s.mem.wf = true →
    accepted s 4 s.pc ∨ s.pc.toNat % 4 = 0 →
    step (s.withFetchWord nbits w) =
        exec (decode (BitVec.ofNat 32 (w % 2 ^ nbits))) (s.withFetchWord nbits w).fetched ∧
      decodeTableWord nbits w = some (decode (BitVec.ofNat 32 (w % 2 ^ nbits)))

/-- A halted core has no step, and Run on it performs none (the spec's decisions D13, D14; log 1). -/
def Obligations.HaltedCoreHasNoStep : Prop :=
  ∀ (s : State) (r : FaultRecord), s.fault = some r → step s = .fault (.halted r) ∧ ∀ n, run n s = .next s

/-- Every step of a core that is not halted: it does not exist exactly when the accessor refuses the fetch or the data
access, and else it completes or takes a fault of the block, both a next state (the spec's decisions D20, D21; logs 1
and 2). -/
def Obligations.StepAnswersUnlessTheAccessorRefuses : Prop :=
  ∀ s : State, s.fault = none →
    (performs s (.read32 s.pc) = false → step s = .fault (.fetchRefused s.pc)) ∧
      (performs s (.read32 s.pc) = true → ∀ a, refusedAccess (instrAtPC s) s.fetched = some a →
        step s = .fault (.dataRefused a)) ∧
      (performs s (.read32 s.pc) = true → refusedAccess (instrAtPC s) s.fetched = none → ∃ t, step s = .next t)

/-- Every step advances the pair from the old `nextPC`; only J, JAL, JR, JALR and taken branches overwrite `nextPC`, and
nothing writes `pc` (10_state.md R26). -/
def Obligations.EveryStepAdvancesThePair : Prop :=
  ∀ s t : State, step s = .next t → t.pc = s.nextPC ∧ t.nextPC = followingPC (instrAtPC s) s

/-- The delay-slot law: a transfer at `A` in straight-line flow completes with its target pending, the word at `A + 4`
executes next whether or not the transfer is taken, and then control reaches the target (40_step_dispatch.md R89). -/
def Obligations.DelaySlotExecutesBeforeTheTarget : Prop :=
  ∀ s : State, s.fault = none → s.fetch ≠ none → s.nextPC = s.pc + 4#32 →
    (∀ T, transferTarget (instrAtPC s) s = some T →
      ∃ t, step s = .next t ∧ t.pc = s.pc + 4#32 ∧ t.nextPC = T ∧ t.fault = none ∧
        (accepted s 4 (s.pc + 4#32) → t.fetch = some (s.mem.wordAt (s.pc + 4#32))) ∧
        (∀ w, t.fetch = some w → step t = exec (decode w) t.fetched) ∧
        ∀ u, step t = .next u →
          u.pc = T ∧ (transferTarget (instrAtPC t) t = none → u.nextPC = T + 4#32) ∧
            (u.fault = none → ∀ w, u.read32 T = some w → step u = exec (decode w) u.fetched)) ∧
      (transferTarget (instrAtPC s) s = none → ∀ t, step s = .next t →
        t.pc = s.pc + 4#32 ∧ t.nextPC = s.pc + 8#32)

/-- A step makes one fetch and then at most one more call, the one its instruction prescribes, in that order, and these are
what reaches a bound accessor's backing (the spec's decision D29; logs 6 and 10). -/
def Obligations.PortCallsOfAStep : Prop :=
  ∀ s t : State, step s = .next t →
    t.portCalls = .mem (.read32 s.pc) :: dataCalls (instrAtPC s) s ∧ t.portCalls.length ≤ 2 ∧
      (onFlatLE s → t.backing = s.backing) ∧
      ∀ k, s.params.mem = .bound k →
        t.backing = ((dataAccess (instrAtPC s) s).map .call).toList ++ .call (.read32 s.pc) :: s.backing

/-- Nothing a step does depends on the port calls noted before it: the field is output only (log 6). -/
def Obligations.StepIgnoresEarlierPortCalls : Prop :=
  ∀ (s : State) (calls : List PortCall), step { s with portCalls := calls } = step s

/-! ## What every step keeps -/

/-- Every step keeps memory canonical, the stored `x[0]` zero and the latched record one of the closed set of faults
(10_state.md R21, 60_exceptions.md R220; log 4). -/
def Obligations.EveryStepKeepsTheInvariant : Prop := ∀ s t : State, s.Inv → step s = .next t → t.Inv

/-- The invariant holds right after reset. -/
def Obligations.ResetMeetsTheInvariant : Prop := State.reset.Inv

/-- The invariant holds of every state the host can bring a configured core to, by runs and by its own moves, whatever the
parameters, the accessor among them, and whatever canonical memory it starts with (logs 4, 10 and 11). -/
def Obligations.ReachableStatesMeetTheInvariant : Prop := ∀ s : State, Reachable s → s.Inv

/-- `pc` and `nextPC` stay multiples of 4 unless a JR or JALR jumps through a register that does not hold one (the
spec's decision D16, 10_state.md R28). -/
def Obligations.PairStaysAligned : Prop :=
  ∀ s t : State, s.pc.toNat % 4 = 0 → s.nextPC.toNat % 4 = 0 → step s = .next t →
    (∀ a b d n, instrAtPC s = .jr a b d n ∨ instrAtPC s = .jalr a b d n → (s.getReg a).toNat % 4 = 0) →
    t.pc.toNat % 4 = 0 ∧ t.nextPC.toNat % 4 = 0

/-- A step changes `FlatLE` only by SB, SH and SW, a bound accessor leaves it alone, and no step changes the parameters;
Reset keeps memory, the bindings and the parameters (10_state.md section 7; logs 3 and 10). -/
def Obligations.OnlyStoresChangeMemory : Prop :=
  (∀ s t : State, step s = .next t → t.params = s.params ∧
    (¬ isStore (instrAtPC s) ∨ ¬ onFlatLE s → t.mem = s.mem)) ∧
    ∀ s : State, (hostReset s).mem = s.mem ∧ (hostReset s).backing = s.backing ∧ (hostReset s).cop0 = s.cop0 ∧
      (hostReset s).params = s.params

/-- An instruction changes no general register but its destination. -/
def Obligations.OnlyTheDestinationChanges : Prop :=
  ∀ (i : Instr) (s t : State) (r : RegIdx), exec i s = .next t → destination i ≠ some r → t.getReg r = s.getReg r

/-- `HI` and `LO` change only by MULT, MULTU, DIV, DIVU and, the one each, by MTHI and MTLO. -/
def Obligations.OnlyMultiplyDivideChangesHiLo : Prop :=
  ∀ (i : Instr) (s t : State), exec i s = .next t →
    (t.hi = s.hi ∨ ∃ a b d n, i = .mult a b d n ∨ i = .multu a b d n ∨ i = .div a b d n ∨ i = .divu a b d n ∨
      i = .mthi a b d n) ∧
    (t.lo = s.lo ∨ ∃ a b d n, i = .mult a b d n ∨ i = .multu a b d n ∨ i = .div a b d n ∨ i = .divu a b d n ∨
      i = .mtlo a b d n)

/-- With the default parameters no step calls coprocessor 0 (49_coproc_exception_invalid.md section 2; log 5). -/
def Obligations.CoprocessorZeroIsSilentByDefault : Prop :=
  ∀ s t : State, s.params.cop0MovesEnabled = false → step s = .next t →
    t.cop0 = s.cop0 ∧ ∀ c, PortCall.cop0 c ∉ t.portCalls

/-! ## Faults, Run and the host's moves (60_exceptions.md, 70_reset_and_hazards.md) -/

/-- After a step the latch holds exactly what the closed table of faults says of the word fetched: its kind and cause,
the address it was fetched from and the word itself, or nothing (the spec's decision D12; log 1). -/
def Obligations.FaultLatchFollowsTheTable : Prop :=
  ∀ s t : State, step s = .next t →
    t.fault = (raises (instrAtPC s) s).map fun kc => ⟨kc.1, kc.2, s.pc, wordAtPC s⟩

/-- A faulting step advances the pair, latches its record and changes nothing else; its one port call is its fetch (the
spec's decision D13). -/
def Obligations.FaultingStepChangesNothingElse : Prop :=
  ∀ (s t : State) (r : FaultRecord), step s = .next t → t.fault = some r →
    sequential s t ∧ sameRegs s t ∧ t.hi = s.hi ∧ t.lo = s.lo ∧ t.mem = s.mem ∧
      t.backing = backingAfter s (.read32 s.pc) ∧ sameHost s t ∧ t.portCalls = [.mem (.read32 s.pc)]

/-- `Run(a)` and then `Run(b)` is `Run(a + b)` (the spec's decision D14). -/
def Obligations.RunsAddUp : Prop :=
  ∀ (a b : Nat) (s : State), run (a + b) s =
    match run a s with
    | .next t => run b t
    | .fault f => .fault f
    | .refused f => .refused f

/-- `Run(n)` that ends without a fault has performed exactly `n` steps, and `n` steps are what `Run(n)` performs (the
spec's decision D14). -/
def Obligations.RunPerformsItsSteps : Prop :=
  ∀ (n : Nat) (s t : State),
    (Host.Core.run core n s = .next t → run n s = .next t) ∧
      (run n s = .next t → t.fault = none → Host.Core.run core n s = .next t)

/-- `SetProgramCounter(a)` sets the pair and nothing else, and a transfer that was pending never happens (the spec's
decision D16, 70_reset_and_hazards.md section 1). -/
def Obligations.SetProgramCounterCancelsATransfer : Prop :=
  ∀ (s : State) (a : Word),
    setProgramCounter a s = { s with pc := a, nextPC := a + 4#32 } ∧
      ∀ t, step (setProgramCounter a s) = .next t → t.pc = a + 4#32

/-- What Reset leaves (the spec's decision D15, 10_state.md section 10). -/
def Obligations.ResetLeavesZeroes : Prop :=
  ∀ s : State, (∀ r : RegIdx, (hostReset s).getReg r = 0#32) ∧ (hostReset s).pc = 0#32 ∧ (hostReset s).nextPC = 0#32 ∧
    (hostReset s).hi = 0#32 ∧ (hostReset s).lo = 0#32 ∧ (hostReset s).fault = none ∧
    hostReset State.reset = State.reset

/-- Running straight from Reset executes the word at address 0 twice, and flow is sequential from there, unless a word
executed transfers control; on `FlatLE` the two words are one, unless the first stores (the spec's own derivation,
70_reset_and_hazards.md R253). -/
def Obligations.ResetExecutesAddressZeroTwice : Prop :=
  ∀ s t u : State, transferTarget (instrAtPC (hostReset s)) (hostReset s) = none →
    step (hostReset s) = .next t → step t = .next u →
    (hostReset s).fetch = s.read32 0#32 ∧ step (hostReset s) = exec (instrAtPC (hostReset s)) (hostReset s).fetched ∧
      t.pc = 0#32 ∧ t.nextPC = 4#32 ∧
      (onFlatLE s → ¬ isStore (instrAtPC (hostReset s)) → instrAtPC t = instrAtPC (hostReset s)) ∧
      step t = exec (instrAtPC t) t.fetched ∧ u.pc = 4#32 ∧
      (transferTarget (instrAtPC t) t = none → u.nextPC = 8#32)

/-! ## General registers (10_state.md) -/

/-- Register 0 reads zero and discards writes, every other register reads back what was written, and an instruction
whose destination is register 0 still makes its memory read and its write of `nextPC` (10_state.md R21). -/
def Obligations.RegisterZeroIsHardWired : Prop :=
  (∀ s : State, s.getReg 0#5 = 0#32) ∧
    (∀ (s : State) (i j : RegIdx) (v : Word),
      (s.setReg i v).getReg j = if j = i ∧ i ≠ 0#5 then v else s.getReg j) ∧
    (∀ (s : State) (v : Word), s.setReg 0#5 v = s) ∧
    ∀ (i : Instr) (s t : State), destination i = some 0#5 → exec i s = .next t →
      sameRegs s t ∧ t.portCalls = s.portCalls ++ dataCalls i s ∧ t.nextPC = followingPC i s

/-! ## Arithmetic, comparison, logical and shift families -/

/-- ADDU, ADDIU and SUBU: the exact sum or difference modulo 2^32, under every parameter setting (41_arithmetic.md R102,
R104, R106). -/
def Obligations.UnsignedAddAndSubtractWrap : Prop :=
  specialWord 0x21#6 .addu ∧ immediateWord 0x09#6 .addiu ∧ specialWord 0x23#6 .subu ∧
    (∀ a b d n s, RegResult (exec (.addu a b d n) s) s d
      (BitVec.ofNat 32 ((s.getReg a).toNat + (s.getReg b).toNat))) ∧
    (∀ a d k s, RegResult (exec (.addiu a d k) s) s d (BitVec.ofInt 32 ((s.getReg a).toNat + k.toInt))) ∧
    ∀ a b d n s, RegResult (exec (.subu a b d n) s) s d
      (BitVec.ofInt 32 ((s.getReg a).toNat - (s.getReg b).toNat))

/-- ADD, ADDI and SUB: they wrap, unless `trapOnOverflow` is set and the exact signed result does not fit, and then they
fault and write no register (the spec's decisions D2, D7; 60_exceptions.md section 8). -/
def Obligations.SignedAddAndSubtractWrapOrTrap : Prop :=
  specialWord 0x20#6 .add ∧ immediateWord 0x08#6 .addi ∧ specialWord 0x22#6 .sub ∧
    ∀ (i : Instr) (s : State) (v : Int), exactResult i s = some v →
      (s.params.trapOnOverflow = false ∨ fitsSigned v →
        ∃ d, destination i = some d ∧ RegResult (exec i s) s d (BitVec.ofInt 32 v)) ∧
      (s.params.trapOnOverflow = true ∧ ¬ fitsSigned v →
        FaultEntry (exec i s) s .arithmeticOverflow .overflow (encode i))

/-- SLT, SLTU, SLTI and SLTIU: 1 or 0 by the exact comparison, signed or unsigned; SLTIU sign-extends its immediate
first (42_comparison.md R111 to R114). -/
def Obligations.ComparisonsGiveOneOrZero : Prop :=
  specialWord 0x2A#6 .slt ∧ specialWord 0x2B#6 .sltu ∧ immediateWord 0x0A#6 .slti ∧ immediateWord 0x0B#6 .sltiu ∧
    (∀ a b d n s, RegResult (exec (.slt a b d n) s) s d
      (if (s.getReg a).toInt < (s.getReg b).toInt then 1#32 else 0#32)) ∧
    (∀ a b d n s, RegResult (exec (.sltu a b d n) s) s d
      (if (s.getReg a).toNat < (s.getReg b).toNat then 1#32 else 0#32)) ∧
    (∀ a d k s, RegResult (exec (.slti a d k) s) s d (if (s.getReg a).toInt < k.toInt then 1#32 else 0#32)) ∧
    ∀ a d k s, RegResult (exec (.sltiu a d k) s) s d
      (if (s.getReg a).toNat < (k.signExtend 32).toNat then 1#32 else 0#32)

/-- AND, OR, XOR, NOR, and ANDI, ORI, XORI with the immediate zero-extended (43_logical.md R121 to R127). -/
def Obligations.LogicalInstructionsAreBitwise : Prop :=
  specialWord 0x24#6 .and ∧ specialWord 0x25#6 .or ∧ specialWord 0x26#6 .xor ∧ specialWord 0x27#6 .nor ∧
    immediateWord 0x0C#6 .andi ∧ immediateWord 0x0D#6 .ori ∧ immediateWord 0x0E#6 .xori ∧
    (∀ a b d n s, RegResult (exec (.and a b d n) s) s d (s.getReg a &&& s.getReg b)) ∧
    (∀ a b d n s, RegResult (exec (.or a b d n) s) s d (s.getReg a ||| s.getReg b)) ∧
    (∀ a b d n s, RegResult (exec (.xor a b d n) s) s d (s.getReg a ^^^ s.getReg b)) ∧
    (∀ a b d n s, RegResult (exec (.nor a b d n) s) s d (~~~(s.getReg a ||| s.getReg b))) ∧
    (∀ a d k s, RegResult (exec (.andi a d k) s) s d (s.getReg a &&& (0#16 ++ k))) ∧
    (∀ a d k s, RegResult (exec (.ori a d k) s) s d (s.getReg a ||| (0#16 ++ k))) ∧
    ∀ a d k s, RegResult (exec (.xori a d k) s) s d (s.getReg a ^^^ (0#16 ++ k))

/-- SLL, SRL, SLLV, SRLV: the value times 2^n modulo 2^32, or divided by 2^n, with `n` the `shamt` field or
`x[rs][4:0]`; LUI: the immediate above 16 zeros (44_shift.md R131, R132, R134, R135, R137). -/
def Obligations.LogicalShiftsAndUpperImmediate : Prop :=
  specialWord 0x00#6 .sll ∧ specialWord 0x02#6 .srl ∧ specialWord 0x04#6 .sllv ∧ specialWord 0x06#6 .srlv ∧
    immediateWord 0x0F#6 .lui ∧
    (∀ a b d n s, RegResult (exec (.sll a b d n) s) s d (BitVec.ofNat 32 ((s.getReg b).toNat * 2 ^ n.toNat))) ∧
    (∀ a b d n s, RegResult (exec (.srl a b d n) s) s d (BitVec.ofNat 32 ((s.getReg b).toNat / 2 ^ n.toNat))) ∧
    (∀ a b d n s, RegResult (exec (.sllv a b d n) s) s d
      (BitVec.ofNat 32 ((s.getReg b).toNat * 2 ^ ((s.getReg a).toNat % 32)))) ∧
    (∀ a b d n s, RegResult (exec (.srlv a b d n) s) s d
      (BitVec.ofNat 32 ((s.getReg b).toNat / 2 ^ ((s.getReg a).toNat % 32)))) ∧
    ∀ a d k s, RegResult (exec (.lui a d k) s) s d (k ++ 0#16)

/-- SRA and SRAV: the signed value divided by 2^n, rounded toward minus infinity (44_shift.md R133, R136). -/
def Obligations.ArithmeticShiftsRoundDown : Prop :=
  specialWord 0x03#6 .sra ∧ specialWord 0x07#6 .srav ∧
    (∀ a b d n s, RegResult (exec (.sra a b d n) s) s d
      (BitVec.ofInt 32 (Int.fdiv (s.getReg b).toInt (2 ^ n.toNat)))) ∧
    ∀ a b d n s, RegResult (exec (.srav a b d n) s) s d
      (BitVec.ofInt 32 (Int.fdiv (s.getReg b).toInt (2 ^ ((s.getReg a).toNat % 32))))

/-! ## Loads and stores (45_load_store.md) -/

/-- LB and LBU, on `FlatLE`, which backs every address, and with whatever another accessor answers (45_load_store.md R141,
R142). -/
def Obligations.ByteLoads : Prop :=
  immediateWord 0x20#6 .lb ∧ immediateWord 0x24#6 .lbu ∧
    (∀ a d k s, onFlatLE s →
      LoadResult (exec (.lb a d k) s) s (.read8 (ea s a k)) d ((s.mem.byteAt (ea s a k)).signExtend 32)) ∧
    (∀ a d k s, onFlatLE s →
      LoadResult (exec (.lbu a d k) s) s (.read8 (ea s a k)) d ((s.mem.byteAt (ea s a k)).zeroExtend 32)) ∧
    ∀ a d k s b, s.read8 (ea s a k) = some b →
      LoadResult (exec (.lb a d k) s) s (.read8 (ea s a k)) d (b.signExtend 32) ∧
        LoadResult (exec (.lbu a d k) s) s (.read8 (ea s a k)) d (b.zeroExtend 32)

/-- LH, LHU and LW, where `FlatLE` performs the access, and with whatever another accessor answers (45_load_store.md R143 to
R145). -/
def Obligations.HalfwordAndWordLoads : Prop :=
  immediateWord 0x21#6 .lh ∧ immediateWord 0x25#6 .lhu ∧ immediateWord 0x23#6 .lw ∧
    (∀ a d k s, accepted s 2 (ea s a k) → LoadResult (exec (.lh a d k) s) s (.read16 (ea s a k)) d
      ((s.mem.byteAt (ea s a k + 1#32) ++ s.mem.byteAt (ea s a k)).signExtend 32)) ∧
    (∀ a d k s, accepted s 2 (ea s a k) → LoadResult (exec (.lhu a d k) s) s (.read16 (ea s a k)) d
      ((s.mem.byteAt (ea s a k + 1#32) ++ s.mem.byteAt (ea s a k)).zeroExtend 32)) ∧
    (∀ a d k s, accepted s 4 (ea s a k) → LoadResult (exec (.lw a d k) s) s (.read32 (ea s a k)) d
      (s.mem.byteAt (ea s a k + 3#32) ++ s.mem.byteAt (ea s a k + 2#32) ++ s.mem.byteAt (ea s a k + 1#32) ++
        s.mem.byteAt (ea s a k))) ∧
    (∀ a d k s h, s.read16 (ea s a k) = some h →
      LoadResult (exec (.lh a d k) s) s (.read16 (ea s a k)) d (h.signExtend 32) ∧
        LoadResult (exec (.lhu a d k) s) s (.read16 (ea s a k)) d (h.zeroExtend 32)) ∧
    ∀ a d k s w, s.read32 (ea s a k) = some w → LoadResult (exec (.lw a d k) s) s (.read32 (ea s a k)) d w

/-- SB stores the low byte of `x[rt]` at the effective address and changes no other byte of `FlatLE`; another accessor that
performs the write receives it (45_load_store.md R146). -/
def Obligations.ByteStore : Prop :=
  immediateWord 0x28#6 .sb ∧
    (∀ a b k s, onFlatLE s → s.mem.wf = true →
      StoreResult (exec (.sb a b k) s) s (.write8 (ea s a k) ((s.getReg b).extractLsb' 0 8)) fun x =>
        if x = ea s a k then (s.getReg b).extractLsb' 0 8 else s.mem.byteAt x) ∧
    ∀ a b k s m, s.write8 (ea s a k) ((s.getReg b).extractLsb' 0 8) = some m →
      StoreResult (exec (.sb a b k) s) s (.write8 (ea s a k) ((s.getReg b).extractLsb' 0 8)) m.byteAt

/-- SH and SW, where `FlatLE` performs the access: the bytes of `x[rt]` in little-endian order from the effective address,
and no other byte changes; another accessor that performs the write receives it (45_load_store.md R147, R148). -/
def Obligations.HalfwordAndWordStores : Prop :=
  immediateWord 0x29#6 .sh ∧ immediateWord 0x2B#6 .sw ∧
    (∀ a b k s, s.mem.wf = true → accepted s 2 (ea s a k) →
      StoreResult (exec (.sh a b k) s) s (.write16 (ea s a k) ((s.getReg b).extractLsb' 0 16)) fun x =>
        if x = ea s a k then (s.getReg b).extractLsb' 0 8
        else if x = ea s a k + 1#32 then (s.getReg b).extractLsb' 8 8
        else s.mem.byteAt x) ∧
    (∀ a b k s, s.mem.wf = true → accepted s 4 (ea s a k) →
      StoreResult (exec (.sw a b k) s) s (.write32 (ea s a k) (s.getReg b)) fun x =>
        if x = ea s a k then (s.getReg b).extractLsb' 0 8
        else if x = ea s a k + 1#32 then (s.getReg b).extractLsb' 8 8
        else if x = ea s a k + 2#32 then (s.getReg b).extractLsb' 16 8
        else if x = ea s a k + 3#32 then (s.getReg b).extractLsb' 24 8
        else s.mem.byteAt x) ∧
    (∀ a b k s m, s.write16 (ea s a k) ((s.getReg b).extractLsb' 0 16) = some m →
      StoreResult (exec (.sh a b k) s) s (.write16 (ea s a k) ((s.getReg b).extractLsb' 0 16)) m.byteAt) ∧
    ∀ a b k s m, s.write32 (ea s a k) (s.getReg b) = some m →
      StoreResult (exec (.sw a b k) s) s (.write32 (ea s a k) (s.getReg b)) m.byteAt

/-- A data access that the accessor refuses stops the machine before the step, and no other load or store does: on `FlatLE`
a misaligned halfword or word access under the policy `refuse`, on another accessor whatever it refuses, an unmapped
address among them (the spec's decisions D20, D21; logs 2 and 10). -/
def Obligations.RefusedDataAccessesStop : Prop :=
  ∀ (s : State) (a b : RegIdx) (k : Half),
    (performs s (.read8 (ea s a k)) = false ↔ exec (.lb a b k) s = .fault (.dataRefused (ea s a k))) ∧
    (performs s (.read8 (ea s a k)) = false ↔ exec (.lbu a b k) s = .fault (.dataRefused (ea s a k))) ∧
    (performs s (.read16 (ea s a k)) = false ↔ exec (.lh a b k) s = .fault (.dataRefused (ea s a k))) ∧
    (performs s (.read16 (ea s a k)) = false ↔ exec (.lhu a b k) s = .fault (.dataRefused (ea s a k))) ∧
    (performs s (.read32 (ea s a k)) = false ↔ exec (.lw a b k) s = .fault (.dataRefused (ea s a k))) ∧
    (performs s (.write8 (ea s a k) ((s.getReg b).extractLsb' 0 8)) = false ↔
      exec (.sb a b k) s = .fault (.dataRefused (ea s a k))) ∧
    (performs s (.write16 (ea s a k) ((s.getReg b).extractLsb' 0 16)) = false ↔
      exec (.sh a b k) s = .fault (.dataRefused (ea s a k))) ∧
    (performs s (.write32 (ea s a k) (s.getReg b)) = false ↔
      exec (.sw a b k) s = .fault (.dataRefused (ea s a k)))

/-- LWL, LWR, SWL and SWR take their fault, whatever the operands (45_load_store.md R149 to R153; what taking a fault
leaves is the spec's decision D13). -/
def Obligations.UnalignedFormsFault : Prop :=
  immediateWordFaults 0x22#6 .lwl .unimplementedInstruction .unalignedLoadStore ∧
    immediateWordFaults 0x26#6 .lwr .unimplementedInstruction .unalignedLoadStore ∧
    immediateWordFaults 0x2A#6 .swl .unimplementedInstruction .unalignedLoadStore ∧
    immediateWordFaults 0x2E#6 .swr .unimplementedInstruction .unalignedLoadStore

/-! ## Multiply and divide (46_muldiv.md) -/

/-- MULT and MULTU: `HI` and `LO` together are the exact 64-bit product (46_muldiv.md R161, R162). -/
def Obligations.ProductsAreExact : Prop :=
  specialWord 0x18#6 .mult ∧ specialWord 0x19#6 .multu ∧
    (∀ a b d n s, ∃ h l, HiLoResult (exec (.mult a b d n) s) s h l ∧
      (h ++ l).toInt = (s.getReg a).toInt * (s.getReg b).toInt) ∧
    ∀ a b d n s, ∃ h l, HiLoResult (exec (.multu a b d n) s) s h l ∧
      (h ++ l).toNat = (s.getReg a).toNat * (s.getReg b).toNat

/-- DIV and DIVU: quotient in `LO`, remainder in `HI`, the signed quotient rounded toward zero, with the values the
spec decides for a zero divisor and for -2^31 / -1 (46_muldiv.md section 3, decisions D3 to D6). -/
def Obligations.QuotientsAndRemainders : Prop :=
  specialWord 0x1A#6 .div ∧ specialWord 0x1B#6 .divu ∧
    (∀ a b d n s, ∃ h l, HiLoResult (exec (.div a b d n) s) s h l ∧
      (s.getReg b = 0#32 → h = s.getReg a ∧ l = if 0 ≤ (s.getReg a).toInt then 0xFFFFFFFF#32 else 1#32) ∧
      (s.getReg a = 0x80000000#32 → s.getReg b = 0xFFFFFFFF#32 → h = 0#32 ∧ l = 0x80000000#32) ∧
      (s.getReg b ≠ 0#32 → ¬ (s.getReg a = 0x80000000#32 ∧ s.getReg b = 0xFFFFFFFF#32) →
        (s.getReg a).toInt = l.toInt * (s.getReg b).toInt + h.toInt ∧
          h.toInt.natAbs < (s.getReg b).toInt.natAbs ∧
          (h.toInt = 0 ∨ (h.toInt < 0 ↔ (s.getReg a).toInt < 0)))) ∧
    ∀ a b d n s, ∃ h l, HiLoResult (exec (.divu a b d n) s) s h l ∧
      (s.getReg b = 0#32 → h = s.getReg a ∧ l = 0xFFFFFFFF#32) ∧
      (s.getReg b ≠ 0#32 → (s.getReg a).toNat = l.toNat * (s.getReg b).toNat + h.toNat ∧
        h.toNat < (s.getReg b).toNat)

/-- MFHI, MFLO, MTHI and MTLO (46_muldiv.md R165 to R168). -/
def Obligations.HiLoMoves : Prop :=
  specialWord 0x10#6 .mfhi ∧ specialWord 0x12#6 .mflo ∧ specialWord 0x11#6 .mthi ∧ specialWord 0x13#6 .mtlo ∧
    (∀ a b d n s, RegResult (exec (.mfhi a b d n) s) s d s.hi) ∧
    (∀ a b d n s, RegResult (exec (.mflo a b d n) s) s d s.lo) ∧
    (∀ a b d n s, HiLoResult (exec (.mthi a b d n) s) s (s.getReg a) s.lo) ∧
    ∀ a b d n s, HiLoResult (exec (.mtlo a b d n) s) s s.hi (s.getReg a)

/-! ## Jumps and branches (47_jump.md, 48_branch.md) -/

/-- J, JAL and JR: the target is the `nextPC`, with the region bits and the link value of JAL from the advanced `pc`
(47_jump.md R171 to R173). -/
def Obligations.JumpsSetTheNextPC : Prop :=
  (∀ w : Word, op w = 0x02#6 → decode w = .j (target w)) ∧ (∀ w : Word, op w = 0x03#6 → decode w = .jal (target w)) ∧
    specialWord 0x08#6 .jr ∧
    (∀ x s, JumpResult (exec (.j x) s) s (jumpTarget s x)) ∧
    (∀ x s, LinkResult (exec (.jal x) s) s 31#5 (jumpTarget s x)) ∧
    ∀ a b d n s, JumpResult (exec (.jr a b d n) s) s (s.getReg a)

/-- JALR: it links in `rd` and jumps to the old `x[rs]`, also when `rd = rs` (the spec's decision D17, 47_jump.md
section 2). -/
def Obligations.JumpAndLinkRegister : Prop :=
  specialWord 0x09#6 .jalr ∧ ∀ a b d n s, LinkResult (exec (.jalr a b d n) s) s d (s.getReg a)

/-- BEQ, BNE, BLEZ, BGTZ, BLTZ and BGEZ: taken by the signed value of their operands, to the advanced `pc` plus four
times the immediate; not taken, flow is sequential (48_branch.md R181 to R186). -/
def Obligations.BranchesFollowTheirCondition : Prop :=
  immediateWord 0x04#6 .beq ∧ immediateWord 0x05#6 .bne ∧ immediateWord 0x06#6 .blez ∧ immediateWord 0x07#6 .bgtz ∧
    (∀ w : Word, op w = 0x01#6 → (rt w).toNat % 2 = 0 → rt w ≠ 16#5 → decode w = .bltz (rs w) (rt w) (imm w)) ∧
    (∀ w : Word, op w = 0x01#6 → (rt w).toNat % 2 = 1 → rt w ≠ 17#5 → decode w = .bgez (rs w) (rt w) (imm w)) ∧
    (∀ a b k s, JumpResult (exec (.beq a b k) s) s
      (if s.getReg a = s.getReg b then branchTarget s k else s.nextPC + 4#32)) ∧
    (∀ a b k s, JumpResult (exec (.bne a b k) s) s
      (if s.getReg a ≠ s.getReg b then branchTarget s k else s.nextPC + 4#32)) ∧
    (∀ a b k s, JumpResult (exec (.blez a b k) s) s
      (if (s.getReg a).toInt ≤ 0 then branchTarget s k else s.nextPC + 4#32)) ∧
    (∀ a b k s, JumpResult (exec (.bgtz a b k) s) s
      (if 0 < (s.getReg a).toInt then branchTarget s k else s.nextPC + 4#32)) ∧
    (∀ a b k s, JumpResult (exec (.bltz a b k) s) s
      (if (s.getReg a).toInt < 0 then branchTarget s k else s.nextPC + 4#32)) ∧
    ∀ a b k s, JumpResult (exec (.bgez a b k) s) s
      (if 0 ≤ (s.getReg a).toInt then branchTarget s k else s.nextPC + 4#32)

/-- BLTZAL and BGEZAL: they link in `x[31]` only when taken, and the condition reads the old `x[31]` (the spec's
decision D18, 48_branch.md sections 1 and 4). -/
def Obligations.BranchesAndLinkOnlyWhenTaken : Prop :=
  (∀ w : Word, op w = 0x01#6 → rt w = 16#5 → decode w = .bltzal (rs w) (imm w)) ∧
    (∀ w : Word, op w = 0x01#6 → rt w = 17#5 → decode w = .bgezal (rs w) (imm w)) ∧
    (∀ a k s, (s.getReg a).toInt < 0 → LinkResult (exec (.bltzal a k) s) s 31#5 (branchTarget s k)) ∧
    (∀ a k s, 0 ≤ (s.getReg a).toInt → JumpResult (exec (.bltzal a k) s) s (s.nextPC + 4#32)) ∧
    (∀ a k s, 0 ≤ (s.getReg a).toInt → LinkResult (exec (.bgezal a k) s) s 31#5 (branchTarget s k)) ∧
    ∀ a k s, (s.getReg a).toInt < 0 → JumpResult (exec (.bgezal a k) s) s (s.nextPC + 4#32)

/-! ## Coprocessor, exception and invalid families (49_coproc_exception_invalid.md) -/

/-- COP0 words decode by their primary opcode alone; with `cop0MovesEnabled`, MFC0 and MTC0 are routed to the
coprocessor-0 capability. The value MFC0 reads is the free value `Config.cop0Register`, whatever it is (the spec's
decisions D11, D30; log 5). -/
def Obligations.RoutedCoprocessorZeroMoves : Prop :=
  (∀ w : Word, op w = 0x10#6 → decode w = .cop0 (rs w) (rt w) (rd w) (w.extractLsb' 0 11)) ∧
    (∀ b d low s, s.params.cop0MovesEnabled = true → ∃ t, exec (.cop0 0#5 b d low) s = .next t ∧
      writesOnly s t b (Config.cop0Register s.cop0 d) ∧ t.cop0 = s.cop0 ++ [.getRegister d] ∧ sequential s t ∧
      t.hi = s.hi ∧ t.lo = s.lo ∧ t.fault = s.fault ∧ sameMemory s t ∧ t.params = s.params) ∧
    ∀ b d low s, s.params.cop0MovesEnabled = true → ∃ t, exec (.cop0 4#5 b d low) s = .next t ∧
      sameRegs s t ∧ t.cop0 = s.cop0 ++ [.setRegister d (s.getReg b)] ∧ sequential s t ∧
      t.hi = s.hi ∧ t.lo = s.lo ∧ t.fault = s.fault ∧ sameMemory s t ∧ t.params = s.params

/-- Every COP0 word faults with the default parameters, and every one but MFC0 and MTC0 under all parameters
(49_coproc_exception_invalid.md section 2, decisions D11 to D13). -/
def Obligations.OtherCoprocessorZeroWordsFault : Prop :=
  ∀ (w : Word) (s : State), op w = 0x10#6 →
    s.params.cop0MovesEnabled = false ∨ (rs w ≠ 0#5 ∧ rs w ≠ 4#5) →
    FaultEntry (exec (.cop0 (rs w) (rt w) (rd w) (w.extractLsb' 0 11)) s) s .unimplementedInstruction .coprocessor w

/-- COP2, LWC0 to LWC3 and SWC0 to SWC3 take their fault, whatever the parameters (49_coproc_exception_invalid.md R192
to R194; what taking a fault leaves is the spec's decision D13). -/
def Obligations.CoprocessorStubsFault : Prop :=
  (∀ (w : Word) (s : State), op w = 0x12#6 → decode w = .cop2 (target w) ∧
    FaultEntry (exec (.cop2 (target w)) s) s .unimplementedInstruction .coprocessor w) ∧
    immediateWordFaults 0x30#6 .lwc0 .unimplementedInstruction .coprocessor ∧
    immediateWordFaults 0x31#6 .lwc1 .unimplementedInstruction .coprocessor ∧
    immediateWordFaults 0x32#6 .lwc2 .unimplementedInstruction .coprocessor ∧
    immediateWordFaults 0x33#6 .lwc3 .unimplementedInstruction .coprocessor ∧
    immediateWordFaults 0x38#6 .swc0 .unimplementedInstruction .coprocessor ∧
    immediateWordFaults 0x39#6 .swc1 .unimplementedInstruction .coprocessor ∧
    immediateWordFaults 0x3A#6 .swc2 .unimplementedInstruction .coprocessor ∧
    immediateWordFaults 0x3B#6 .swc3 .unimplementedInstruction .coprocessor

/-- SYSCALL and BREAK take their fault, and the record keeps the whole word with its ignored bits
(49_coproc_exception_invalid.md R195, R196; what taking a fault leaves is the spec's decision D13). -/
def Obligations.SyscallAndBreakFault : Prop :=
  (∀ (w : Word) (s : State), op w = 0x00#6 → funct w = 0x0C#6 → decode w = .syscall (w.extractLsb' 6 20) ∧
    FaultEntry (exec (.syscall (w.extractLsb' 6 20)) s) s .unimplementedInstruction .syscall w) ∧
    ∀ (w : Word) (s : State), op w = 0x00#6 → funct w = 0x0D#6 → decode w = .brk (w.extractLsb' 6 20) ∧
      FaultEntry (exec (.brk (w.extractLsb' 6 20)) s) s .unimplementedInstruction .brk w

/-- Every word of an unassigned function code, or of an unassigned primary opcode other than COP1 and COP3, takes the
fault `InvalidOpcode` (49_coproc_exception_invalid.md R197; what taking a fault leaves is the spec's decision D13). -/
def Obligations.InvalidWordsFault : Prop :=
  (∀ (w : Word) (s : State), op w = 0x00#6 → unassignedFunct (funct w) →
    decode w = .invalidSpecial (w.extractLsb' 6 20) (funct w) ∧
      FaultEntry (exec (.invalidSpecial (w.extractLsb' 6 20) (funct w)) s) s .invalidOpcode .none w) ∧
    ∀ (w : Word) (s : State), unassignedOpcode (op w) → op w ≠ 0x11#6 → op w ≠ 0x13#6 →
      decode w = .invalid (op w) (target w) ∧
        FaultEntry (exec (.invalid (op w) (target w)) s) s .invalidOpcode .none w

/-- COP1 and COP3 words take the fault `InvalidOpcode`, not `UnimplementedInstruction` (the spec's decision D10,
49_coproc_exception_invalid.md section 4). -/
def Obligations.CoprocessorOneAndThreeAreInvalid : Prop :=
  (∀ (w : Word) (s : State), op w = 0x11#6 → decode w = .cop1 (target w) ∧
    FaultEntry (exec (.cop1 (target w)) s) s .invalidOpcode .none w) ∧
    ∀ (w : Word) (s : State), op w = 0x13#6 → decode w = .cop3 (target w) ∧
      FaultEntry (exec (.cop3 (target w)) s) s .invalidOpcode .none w

end Rules
end

