-- ==== Sys2Proof/Laws/Decode.lean ====
section
/-! SUPPORT. The fields of an encoded word, and a word put back together from its fields. -/

namespace Sys2Proof

/-! ## The value of a word, field by field -/

theorem toNat_append_add {n m : Nat} (x : BitVec n) (y : BitVec m) : (x ++ y).toNat = x.toNat * 2 ^ m + y.toNat := by
  rw [BitVec.toNat_append, ← Nat.shiftLeft_add_eq_or_of_lt y.isLt, Nat.shiftLeft_eq]

theorem toNat_encodeR (op : BitVec 6) (rs rt rd : RegIdx) (shamt : BitVec 5) (funct : BitVec 6) :
    (encodeR op rs rt rd shamt funct).toNat =
      ((((op.toNat * 2 ^ 5 + rs.toNat) * 2 ^ 5 + rt.toNat) * 2 ^ 5 + rd.toNat) * 2 ^ 5 + shamt.toNat) * 2 ^ 6 +
        funct.toNat := by
  unfold encodeR
  erw [toNat_append_add, toNat_append_add, toNat_append_add, toNat_append_add, toNat_append_add]

theorem toNat_encodeI (op : BitVec 6) (rs rt : RegIdx) (imm : Half) :
    (encodeI op rs rt imm).toNat =
      ((op.toNat * 2 ^ 5 + rs.toNat) * 2 ^ 5 + rt.toNat) * 2 ^ 16 + imm.toNat := by
  unfold encodeI
  erw [toNat_append_add, toNat_append_add, toNat_append_add]

theorem toNat_encodeJ (op : BitVec 6) (target : BitVec 26) :
    (encodeJ op target).toNat = op.toNat * 2 ^ 26 + target.toNat := by
  unfold encodeJ
  erw [toNat_append_add]

theorem toNat_encodeCode (code : BitVec 20) (funct : BitVec 6) :
    (encodeCode code funct).toNat = code.toNat * 2 ^ 6 + funct.toNat := by
  unfold encodeCode
  erw [toNat_append_add, toNat_append_add]
  simp

theorem toNat_encodeCop0 (sub : BitVec 5) (rt rd : RegIdx) (low : BitVec 11) :
    (encodeCop0 sub rt rd low).toNat =
      (((16 * 2 ^ 5 + sub.toNat) * 2 ^ 5 + rt.toNat) * 2 ^ 5 + rd.toNat) * 2 ^ 11 + low.toNat := by
  unfold encodeCop0
  erw [toNat_append_add, toNat_append_add, toNat_append_add, toNat_append_add]
  rfl

/-! ## The fields of an encoded word -/

@[simp] theorem fieldOp_encodeR (op : BitVec 6) (rs rt rd : RegIdx) (shamt : BitVec 5) (funct : BitVec 6) :
    fieldOp (encodeR op rs rt rd shamt funct) = op := by
  apply BitVec.eq_of_toNat_eq
  simp [fieldOp, toNat_encodeR, Nat.shiftRight_eq_div_pow]
  omega

@[simp] theorem fieldRs_encodeR (op : BitVec 6) (rs rt rd : RegIdx) (shamt : BitVec 5) (funct : BitVec 6) :
    fieldRs (encodeR op rs rt rd shamt funct) = rs := by
  apply BitVec.eq_of_toNat_eq
  simp [fieldRs, toNat_encodeR, Nat.shiftRight_eq_div_pow]
  omega

@[simp] theorem fieldRt_encodeR (op : BitVec 6) (rs rt rd : RegIdx) (shamt : BitVec 5) (funct : BitVec 6) :
    fieldRt (encodeR op rs rt rd shamt funct) = rt := by
  apply BitVec.eq_of_toNat_eq
  simp [fieldRt, toNat_encodeR, Nat.shiftRight_eq_div_pow]
  omega

@[simp] theorem fieldRd_encodeR (op : BitVec 6) (rs rt rd : RegIdx) (shamt : BitVec 5) (funct : BitVec 6) :
    fieldRd (encodeR op rs rt rd shamt funct) = rd := by
  apply BitVec.eq_of_toNat_eq
  simp [fieldRd, toNat_encodeR, Nat.shiftRight_eq_div_pow]
  omega

@[simp] theorem fieldShamt_encodeR (op : BitVec 6) (rs rt rd : RegIdx) (shamt : BitVec 5) (funct : BitVec 6) :
    fieldShamt (encodeR op rs rt rd shamt funct) = shamt := by
  apply BitVec.eq_of_toNat_eq
  simp [fieldShamt, toNat_encodeR, Nat.shiftRight_eq_div_pow]
  omega

@[simp] theorem fieldFunct_encodeR (op : BitVec 6) (rs rt rd : RegIdx) (shamt : BitVec 5) (funct : BitVec 6) :
    fieldFunct (encodeR op rs rt rd shamt funct) = funct := by
  apply BitVec.eq_of_toNat_eq
  simp [fieldFunct, toNat_encodeR, Nat.shiftRight_eq_div_pow]
  omega

@[simp] theorem fieldOp_encodeI (op : BitVec 6) (rs rt : RegIdx) (imm : Half) :
    fieldOp (encodeI op rs rt imm) = op := by
  apply BitVec.eq_of_toNat_eq
  simp [fieldOp, toNat_encodeI, Nat.shiftRight_eq_div_pow]
  omega

@[simp] theorem fieldRs_encodeI (op : BitVec 6) (rs rt : RegIdx) (imm : Half) :
    fieldRs (encodeI op rs rt imm) = rs := by
  apply BitVec.eq_of_toNat_eq
  simp [fieldRs, toNat_encodeI, Nat.shiftRight_eq_div_pow]
  omega

@[simp] theorem fieldRt_encodeI (op : BitVec 6) (rs rt : RegIdx) (imm : Half) :
    fieldRt (encodeI op rs rt imm) = rt := by
  apply BitVec.eq_of_toNat_eq
  simp [fieldRt, toNat_encodeI, Nat.shiftRight_eq_div_pow]
  omega

@[simp] theorem fieldImm_encodeI (op : BitVec 6) (rs rt : RegIdx) (imm : Half) :
    fieldImm (encodeI op rs rt imm) = imm := by
  apply BitVec.eq_of_toNat_eq
  simp [fieldImm, toNat_encodeI, Nat.shiftRight_eq_div_pow]
  omega

@[simp] theorem fieldOp_encodeJ (op : BitVec 6) (target : BitVec 26) :
    fieldOp (encodeJ op target) = op := by
  apply BitVec.eq_of_toNat_eq
  simp [fieldOp, toNat_encodeJ, Nat.shiftRight_eq_div_pow]
  omega

@[simp] theorem fieldTarget_encodeJ (op : BitVec 6) (target : BitVec 26) :
    fieldTarget (encodeJ op target) = target := by
  apply BitVec.eq_of_toNat_eq
  simp [fieldTarget, toNat_encodeJ, Nat.shiftRight_eq_div_pow]
  omega

@[simp] theorem fieldOp_encodeCode (code : BitVec 20) (funct : BitVec 6) :
    fieldOp (encodeCode code funct) = 0x00#6 := by
  apply BitVec.eq_of_toNat_eq
  simp [fieldOp, toNat_encodeCode, Nat.shiftRight_eq_div_pow]
  omega

@[simp] theorem fieldCode_encodeCode (code : BitVec 20) (funct : BitVec 6) :
    fieldCode (encodeCode code funct) = code := by
  apply BitVec.eq_of_toNat_eq
  simp [fieldCode, toNat_encodeCode, Nat.shiftRight_eq_div_pow]
  omega

@[simp] theorem fieldFunct_encodeCode (code : BitVec 20) (funct : BitVec 6) :
    fieldFunct (encodeCode code funct) = funct := by
  apply BitVec.eq_of_toNat_eq
  simp [fieldFunct, toNat_encodeCode, Nat.shiftRight_eq_div_pow]
  omega

@[simp] theorem fieldOp_encodeCop0 (sub : BitVec 5) (rt rd : RegIdx) (low : BitVec 11) :
    fieldOp (encodeCop0 sub rt rd low) = 0x10#6 := by
  apply BitVec.eq_of_toNat_eq
  simp [fieldOp, toNat_encodeCop0, Nat.shiftRight_eq_div_pow]
  omega

@[simp] theorem fieldRs_encodeCop0 (sub : BitVec 5) (rt rd : RegIdx) (low : BitVec 11) :
    fieldRs (encodeCop0 sub rt rd low) = sub := by
  apply BitVec.eq_of_toNat_eq
  simp [fieldRs, toNat_encodeCop0, Nat.shiftRight_eq_div_pow]
  omega

@[simp] theorem fieldRt_encodeCop0 (sub : BitVec 5) (rt rd : RegIdx) (low : BitVec 11) :
    fieldRt (encodeCop0 sub rt rd low) = rt := by
  apply BitVec.eq_of_toNat_eq
  simp [fieldRt, toNat_encodeCop0, Nat.shiftRight_eq_div_pow]
  omega

@[simp] theorem fieldRd_encodeCop0 (sub : BitVec 5) (rt rd : RegIdx) (low : BitVec 11) :
    fieldRd (encodeCop0 sub rt rd low) = rd := by
  apply BitVec.eq_of_toNat_eq
  simp [fieldRd, toNat_encodeCop0, Nat.shiftRight_eq_div_pow]
  omega

@[simp] theorem fieldLow_encodeCop0 (sub : BitVec 5) (rt rd : RegIdx) (low : BitVec 11) :
    fieldLow (encodeCop0 sub rt rd low) = low := by
  apply BitVec.eq_of_toNat_eq
  simp [fieldLow, toNat_encodeCop0, Nat.shiftRight_eq_div_pow]
  omega

/-! ## A word from its fields -/

theorem fieldsR (w : Word) : encodeR (fieldOp w) (fieldRs w) (fieldRt w) (fieldRd w) (fieldShamt w) (fieldFunct w) = w := by
  apply BitVec.eq_of_toNat_eq
  have h := w.isLt
  simp [toNat_encodeR, fieldOp, fieldRs, fieldRt, fieldRd, fieldShamt, fieldFunct, Nat.shiftRight_eq_div_pow]
  omega

theorem fieldsI (w : Word) : encodeI (fieldOp w) (fieldRs w) (fieldRt w) (fieldImm w) = w := by
  apply BitVec.eq_of_toNat_eq
  have h := w.isLt
  simp [toNat_encodeI, fieldOp, fieldRs, fieldRt, fieldImm, Nat.shiftRight_eq_div_pow]
  omega

theorem fieldsJ (w : Word) : encodeJ (fieldOp w) (fieldTarget w) = w := by
  apply BitVec.eq_of_toNat_eq
  have h := w.isLt
  simp [toNat_encodeJ, fieldOp, fieldTarget, Nat.shiftRight_eq_div_pow]
  omega

theorem fieldsCode (w : Word) (h : fieldOp w = 0x00#6) : encodeCode (fieldCode w) (fieldFunct w) = w := by
  apply BitVec.eq_of_toNat_eq
  have hw := w.isLt
  have h' := congrArg BitVec.toNat h
  simp [fieldOp, Nat.shiftRight_eq_div_pow] at h'
  simp [toNat_encodeCode, fieldCode, fieldFunct, Nat.shiftRight_eq_div_pow]
  omega

theorem fieldsCop0 (w : Word) (h : fieldOp w = 0x10#6) :
    encodeCop0 (fieldRs w) (fieldRt w) (fieldRd w) (fieldLow w) = w := by
  apply BitVec.eq_of_toNat_eq
  have hw := w.isLt
  have h' := congrArg BitVec.toNat h
  simp [fieldOp, Nat.shiftRight_eq_div_pow] at h'
  simp [toNat_encodeCop0, fieldRs, fieldRt, fieldRd, fieldLow, Nat.shiftRight_eq_div_pow]
  omega

/-! ## Bytes of a word -/

/-- The bytes of a word, decoded, are the word decoded. -/
theorem decodeBytes_bytesOfWord (w : Word) (rest : List Byte) :
    decodeBytes (bytesOfWord w ++ rest) = .ok (decode w, rest) := by
  have h : wordOfBytes (w.extractLsb' 0 8) (w.extractLsb' 8 8) (w.extractLsb' 16 8) (w.extractLsb' 24 8) = w := by
    apply BitVec.eq_of_toNat_eq
    have hw := w.isLt
    unfold wordOfBytes
    erw [toNat_append_add, toNat_append_add, toNat_append_add]
    simp [Nat.shiftRight_eq_div_pow]
    omega
  simp [bytesOfWord, decodeBytes, h]

theorem decodeTableWord_eq (nbits w : Nat) : decodeTableWord nbits w = some (decode (tableWord nbits w)) := by
  have := decodeBytes_bytesOfWord (tableWord nbits w) []
  simp only [List.append_nil] at this
  simp [decodeTableWord, this]

end Sys2Proof
end

