-- ==== Sys2Proof/Laws/State.lean ====
section
/-! SUPPORT. One lemma per field per update of State, so that no proof unfolds a record update. -/

namespace Sys2Proof.Machine

variable (s : State)

/-! ## `setReg` -/

@[simp] theorem setReg_pc (i : RegIdx) (v : Word) : (s.setReg i v).pc = s.pc := rfl
@[simp] theorem setReg_nextPC (i : RegIdx) (v : Word) : (s.setReg i v).nextPC = s.nextPC := rfl
@[simp] theorem setReg_hi (i : RegIdx) (v : Word) : (s.setReg i v).hi = s.hi := rfl
@[simp] theorem setReg_lo (i : RegIdx) (v : Word) : (s.setReg i v).lo = s.lo := rfl
@[simp] theorem setReg_fault (i : RegIdx) (v : Word) : (s.setReg i v).fault = s.fault := rfl
@[simp] theorem setReg_mem (i : RegIdx) (v : Word) : (s.setReg i v).mem = s.mem := rfl
@[simp] theorem setReg_backing (i : RegIdx) (v : Word) : (s.setReg i v).backing = s.backing := rfl
@[simp] theorem setReg_cop0 (i : RegIdx) (v : Word) : (s.setReg i v).cop0 = s.cop0 := rfl
@[simp] theorem setReg_portCalls (i : RegIdx) (v : Word) : (s.setReg i v).portCalls = s.portCalls := rfl
@[simp] theorem setReg_params (i : RegIdx) (v : Word) : (s.setReg i v).params = s.params := rfl
@[simp] theorem setReg_received (i : RegIdx) (v : Word) (e : Config.BackingEvent) : (s.setReg i v).received e = s.received e := rfl
@[simp] theorem setReg_gpr (i : RegIdx) (v : Word) : (s.setReg i v).gpr = writeGpr s.gpr i v := rfl
@[simp] theorem setReg_acceptsHalf (i : RegIdx) (v : Word) (x : Word) : (s.setReg i v).acceptsHalf x = s.acceptsHalf x := rfl
@[simp] theorem setReg_acceptsWord (i : RegIdx) (v : Word) (x : Word) : (s.setReg i v).acceptsWord x = s.acceptsWord x := rfl

/-! ## `setHiLo` -/

@[simp] theorem setHiLo_pc (h l : Word) : (s.setHiLo h l).pc = s.pc := rfl
@[simp] theorem setHiLo_nextPC (h l : Word) : (s.setHiLo h l).nextPC = s.nextPC := rfl
@[simp] theorem setHiLo_hi (h l : Word) : (s.setHiLo h l).hi = h := rfl
@[simp] theorem setHiLo_lo (h l : Word) : (s.setHiLo h l).lo = l := rfl
@[simp] theorem setHiLo_fault (h l : Word) : (s.setHiLo h l).fault = s.fault := rfl
@[simp] theorem setHiLo_mem (h l : Word) : (s.setHiLo h l).mem = s.mem := rfl
@[simp] theorem setHiLo_backing (h l : Word) : (s.setHiLo h l).backing = s.backing := rfl
@[simp] theorem setHiLo_cop0 (h l : Word) : (s.setHiLo h l).cop0 = s.cop0 := rfl
@[simp] theorem setHiLo_portCalls (h l : Word) : (s.setHiLo h l).portCalls = s.portCalls := rfl
@[simp] theorem setHiLo_params (h l : Word) : (s.setHiLo h l).params = s.params := rfl
@[simp] theorem setHiLo_received (h l : Word) (e : Config.BackingEvent) : (s.setHiLo h l).received e = s.received e := rfl
@[simp] theorem setHiLo_gpr (h l : Word) : (s.setHiLo h l).gpr = s.gpr := rfl
@[simp] theorem setHiLo_getReg (h l : Word) (r : RegIdx) : (s.setHiLo h l).getReg r = s.getReg r := rfl
@[simp] theorem setHiLo_acceptsHalf (h l : Word) (x : Word) : (s.setHiLo h l).acceptsHalf x = s.acceptsHalf x := rfl
@[simp] theorem setHiLo_acceptsWord (h l : Word) (x : Word) : (s.setHiLo h l).acceptsWord x = s.acceptsWord x := rfl

/-! ## `advance` -/

@[simp] theorem advance_pc : (s.advance).pc = s.nextPC := rfl
@[simp] theorem advance_nextPC : (s.advance).nextPC = s.nextPC + 4#32 := rfl
@[simp] theorem advance_hi : (s.advance).hi = s.hi := rfl
@[simp] theorem advance_lo : (s.advance).lo = s.lo := rfl
@[simp] theorem advance_fault : (s.advance).fault = s.fault := rfl
@[simp] theorem advance_mem : (s.advance).mem = s.mem := rfl
@[simp] theorem advance_backing : (s.advance).backing = s.backing := rfl
@[simp] theorem advance_cop0 : (s.advance).cop0 = s.cop0 := rfl
@[simp] theorem advance_portCalls : (s.advance).portCalls = s.portCalls := rfl
@[simp] theorem advance_params : (s.advance).params = s.params := rfl
@[simp] theorem advance_received (e : Config.BackingEvent) : (s.advance).received e = s.received e := rfl
@[simp] theorem advance_gpr : (s.advance).gpr = s.gpr := rfl
@[simp] theorem advance_getReg (r : RegIdx) : (s.advance).getReg r = s.getReg r := rfl
@[simp] theorem advance_acceptsHalf (x : Word) : (s.advance).acceptsHalf x = s.acceptsHalf x := rfl
@[simp] theorem advance_acceptsWord (x : Word) : (s.advance).acceptsWord x = s.acceptsWord x := rfl

/-! ## `setNextPC` -/

@[simp] theorem setNextPC_pc (a : Word) : (s.setNextPC a).pc = s.pc := rfl
@[simp] theorem setNextPC_nextPC (a : Word) : (s.setNextPC a).nextPC = a := rfl
@[simp] theorem setNextPC_hi (a : Word) : (s.setNextPC a).hi = s.hi := rfl
@[simp] theorem setNextPC_lo (a : Word) : (s.setNextPC a).lo = s.lo := rfl
@[simp] theorem setNextPC_fault (a : Word) : (s.setNextPC a).fault = s.fault := rfl
@[simp] theorem setNextPC_mem (a : Word) : (s.setNextPC a).mem = s.mem := rfl
@[simp] theorem setNextPC_backing (a : Word) : (s.setNextPC a).backing = s.backing := rfl
@[simp] theorem setNextPC_cop0 (a : Word) : (s.setNextPC a).cop0 = s.cop0 := rfl
@[simp] theorem setNextPC_portCalls (a : Word) : (s.setNextPC a).portCalls = s.portCalls := rfl
@[simp] theorem setNextPC_params (a : Word) : (s.setNextPC a).params = s.params := rfl
@[simp] theorem setNextPC_received (a : Word) (e : Config.BackingEvent) : (s.setNextPC a).received e = s.received e := rfl
@[simp] theorem setNextPC_gpr (a : Word) : (s.setNextPC a).gpr = s.gpr := rfl
@[simp] theorem setNextPC_getReg (a : Word) (r : RegIdx) : (s.setNextPC a).getReg r = s.getReg r := rfl
@[simp] theorem setNextPC_acceptsHalf (a : Word) (x : Word) : (s.setNextPC a).acceptsHalf x = s.acceptsHalf x := rfl
@[simp] theorem setNextPC_acceptsWord (a : Word) (x : Word) : (s.setNextPC a).acceptsWord x = s.acceptsWord x := rfl

/-! ## `setMem` -/

@[simp] theorem setMem_pc (m : Memory) : (s.setMem m).pc = s.pc := rfl
@[simp] theorem setMem_nextPC (m : Memory) : (s.setMem m).nextPC = s.nextPC := rfl
@[simp] theorem setMem_hi (m : Memory) : (s.setMem m).hi = s.hi := rfl
@[simp] theorem setMem_lo (m : Memory) : (s.setMem m).lo = s.lo := rfl
@[simp] theorem setMem_fault (m : Memory) : (s.setMem m).fault = s.fault := rfl
@[simp] theorem setMem_mem (m : Memory) : (s.setMem m).mem = m := rfl
@[simp] theorem setMem_backing (m : Memory) : (s.setMem m).backing = s.backing := rfl
@[simp] theorem setMem_cop0 (m : Memory) : (s.setMem m).cop0 = s.cop0 := rfl
@[simp] theorem setMem_portCalls (m : Memory) : (s.setMem m).portCalls = s.portCalls := rfl
@[simp] theorem setMem_params (m : Memory) : (s.setMem m).params = s.params := rfl
@[simp] theorem setMem_received (m : Memory) (e : Config.BackingEvent) : (s.setMem m).received e = s.received e := rfl
@[simp] theorem setMem_gpr (m : Memory) : (s.setMem m).gpr = s.gpr := rfl
@[simp] theorem setMem_getReg (m : Memory) (r : RegIdx) : (s.setMem m).getReg r = s.getReg r := rfl
@[simp] theorem setMem_acceptsHalf (m : Memory) (x : Word) : (s.setMem m).acceptsHalf x = s.acceptsHalf x := rfl
@[simp] theorem setMem_acceptsWord (m : Memory) (x : Word) : (s.setMem m).acceptsWord x = s.acceptsWord x := rfl

/-! ## `receive` -/

@[simp] theorem receive_pc (e : Config.BackingEvent) : (s.receive e).pc = s.pc := rfl
@[simp] theorem receive_nextPC (e : Config.BackingEvent) : (s.receive e).nextPC = s.nextPC := rfl
@[simp] theorem receive_hi (e : Config.BackingEvent) : (s.receive e).hi = s.hi := rfl
@[simp] theorem receive_lo (e : Config.BackingEvent) : (s.receive e).lo = s.lo := rfl
@[simp] theorem receive_fault (e : Config.BackingEvent) : (s.receive e).fault = s.fault := rfl
@[simp] theorem receive_mem (e : Config.BackingEvent) : (s.receive e).mem = s.mem := rfl
@[simp] theorem receive_backing (e : Config.BackingEvent) : (s.receive e).backing = s.received e := rfl
@[simp] theorem receive_cop0 (e : Config.BackingEvent) : (s.receive e).cop0 = s.cop0 := rfl
@[simp] theorem receive_portCalls (e : Config.BackingEvent) : (s.receive e).portCalls = s.portCalls := rfl
@[simp] theorem receive_params (e : Config.BackingEvent) : (s.receive e).params = s.params := rfl
@[simp] theorem receive_gpr (e : Config.BackingEvent) : (s.receive e).gpr = s.gpr := rfl
@[simp] theorem receive_getReg (e : Config.BackingEvent) (r : RegIdx) : (s.receive e).getReg r = s.getReg r := rfl
@[simp] theorem receive_acceptsHalf (e : Config.BackingEvent) (x : Word) : (s.receive e).acceptsHalf x = s.acceptsHalf x := rfl
@[simp] theorem receive_acceptsWord (e : Config.BackingEvent) (x : Word) : (s.receive e).acceptsWord x = s.acceptsWord x := rfl

/-- `FlatLE` keeps no events. -/
theorem received_flatLE {s : State} (h : s.params.mem = .flatLE) (e : Config.BackingEvent) :
    s.received e = s.backing := by simp [State.received, h]

/-- A bound accessor's backing keeps every event. -/
theorem received_bound {s : State} {k : Nat} (h : s.params.mem = .bound k) (e : Config.BackingEvent) :
    s.received e = e :: s.backing := by simp [State.received, h]

/-! ## `callMem` -/

@[simp] theorem callMem_pc (c : Config.MemCall) : (s.callMem c).pc = s.pc := rfl
@[simp] theorem callMem_nextPC (c : Config.MemCall) : (s.callMem c).nextPC = s.nextPC := rfl
@[simp] theorem callMem_hi (c : Config.MemCall) : (s.callMem c).hi = s.hi := rfl
@[simp] theorem callMem_lo (c : Config.MemCall) : (s.callMem c).lo = s.lo := rfl
@[simp] theorem callMem_fault (c : Config.MemCall) : (s.callMem c).fault = s.fault := rfl
@[simp] theorem callMem_mem (c : Config.MemCall) : (s.callMem c).mem = s.mem := rfl
@[simp] theorem callMem_backing (c : Config.MemCall) : (s.callMem c).backing = s.received (.call c) := rfl
@[simp] theorem callMem_cop0 (c : Config.MemCall) : (s.callMem c).cop0 = s.cop0 := rfl
@[simp] theorem callMem_portCalls (c : Config.MemCall) : (s.callMem c).portCalls = s.portCalls ++ [.mem c] := rfl
@[simp] theorem callMem_params (c : Config.MemCall) : (s.callMem c).params = s.params := rfl
@[simp] theorem callMem_gpr (c : Config.MemCall) : (s.callMem c).gpr = s.gpr := rfl
@[simp] theorem callMem_getReg (c : Config.MemCall) (r : RegIdx) : (s.callMem c).getReg r = s.getReg r := rfl
@[simp] theorem callMem_acceptsHalf (c : Config.MemCall) (x : Word) : (s.callMem c).acceptsHalf x = s.acceptsHalf x := rfl
@[simp] theorem callMem_acceptsWord (c : Config.MemCall) (x : Word) : (s.callMem c).acceptsWord x = s.acceptsWord x := rfl

/-! ## `fetched` -/

@[simp] theorem fetched_pc : (s.fetched).pc = s.pc := rfl
@[simp] theorem fetched_nextPC : (s.fetched).nextPC = s.nextPC := rfl
@[simp] theorem fetched_hi : (s.fetched).hi = s.hi := rfl
@[simp] theorem fetched_lo : (s.fetched).lo = s.lo := rfl
@[simp] theorem fetched_fault : (s.fetched).fault = s.fault := rfl
@[simp] theorem fetched_mem : (s.fetched).mem = s.mem := rfl
@[simp] theorem fetched_backing : (s.fetched).backing = s.received (.call (.read32 s.pc)) := rfl
@[simp] theorem fetched_cop0 : (s.fetched).cop0 = s.cop0 := rfl
@[simp] theorem fetched_portCalls : (s.fetched).portCalls = [.mem (.read32 s.pc)] := rfl
@[simp] theorem fetched_params : (s.fetched).params = s.params := rfl
@[simp] theorem fetched_gpr : (s.fetched).gpr = s.gpr := rfl
@[simp] theorem fetched_getReg (r : RegIdx) : (s.fetched).getReg r = s.getReg r := rfl
@[simp] theorem fetched_acceptsHalf (x : Word) : (s.fetched).acceptsHalf x = s.acceptsHalf x := rfl
@[simp] theorem fetched_acceptsWord (x : Word) : (s.fetched).acceptsWord x = s.acceptsWord x := rfl

/-! ## `callCop0` -/

@[simp] theorem callCop0_pc (c : Config.Cop0Call) : (s.callCop0 c).pc = s.pc := rfl
@[simp] theorem callCop0_nextPC (c : Config.Cop0Call) : (s.callCop0 c).nextPC = s.nextPC := rfl
@[simp] theorem callCop0_hi (c : Config.Cop0Call) : (s.callCop0 c).hi = s.hi := rfl
@[simp] theorem callCop0_lo (c : Config.Cop0Call) : (s.callCop0 c).lo = s.lo := rfl
@[simp] theorem callCop0_fault (c : Config.Cop0Call) : (s.callCop0 c).fault = s.fault := rfl
@[simp] theorem callCop0_mem (c : Config.Cop0Call) : (s.callCop0 c).mem = s.mem := rfl
@[simp] theorem callCop0_backing (c : Config.Cop0Call) : (s.callCop0 c).backing = s.backing := rfl
@[simp] theorem callCop0_cop0 (c : Config.Cop0Call) : (s.callCop0 c).cop0 = s.cop0 ++ [c] := rfl
@[simp] theorem callCop0_portCalls (c : Config.Cop0Call) : (s.callCop0 c).portCalls = s.portCalls ++ [.cop0 c] := rfl
@[simp] theorem callCop0_params (c : Config.Cop0Call) : (s.callCop0 c).params = s.params := rfl
@[simp] theorem callCop0_received (c : Config.Cop0Call) (e : Config.BackingEvent) : (s.callCop0 c).received e = s.received e := rfl
@[simp] theorem callCop0_gpr (c : Config.Cop0Call) : (s.callCop0 c).gpr = s.gpr := rfl
@[simp] theorem callCop0_getReg (c : Config.Cop0Call) (r : RegIdx) : (s.callCop0 c).getReg r = s.getReg r := rfl
@[simp] theorem callCop0_acceptsHalf (c : Config.Cop0Call) (x : Word) : (s.callCop0 c).acceptsHalf x = s.acceptsHalf x := rfl
@[simp] theorem callCop0_acceptsWord (c : Config.Cop0Call) (x : Word) : (s.callCop0 c).acceptsWord x = s.acceptsWord x := rfl

/-! ## `raise` -/

@[simp] theorem raise_pc (k : FaultKind) (c : FaultCause) (w : Word) : (s.raise k c w).pc = s.nextPC := rfl
@[simp] theorem raise_nextPC (k : FaultKind) (c : FaultCause) (w : Word) : (s.raise k c w).nextPC = s.nextPC + 4#32 := rfl
@[simp] theorem raise_hi (k : FaultKind) (c : FaultCause) (w : Word) : (s.raise k c w).hi = s.hi := rfl
@[simp] theorem raise_lo (k : FaultKind) (c : FaultCause) (w : Word) : (s.raise k c w).lo = s.lo := rfl
@[simp] theorem raise_fault (k : FaultKind) (c : FaultCause) (w : Word) : (s.raise k c w).fault = some ⟨k, c, s.pc, w⟩ := rfl
@[simp] theorem raise_mem (k : FaultKind) (c : FaultCause) (w : Word) : (s.raise k c w).mem = s.mem := rfl
@[simp] theorem raise_backing (k : FaultKind) (c : FaultCause) (w : Word) : (s.raise k c w).backing = s.backing := rfl
@[simp] theorem raise_cop0 (k : FaultKind) (c : FaultCause) (w : Word) : (s.raise k c w).cop0 = s.cop0 := rfl
@[simp] theorem raise_portCalls (k : FaultKind) (c : FaultCause) (w : Word) : (s.raise k c w).portCalls = s.portCalls := rfl
@[simp] theorem raise_params (k : FaultKind) (c : FaultCause) (w : Word) : (s.raise k c w).params = s.params := rfl
@[simp] theorem raise_received (k : FaultKind) (c : FaultCause) (w : Word) (e : Config.BackingEvent) : (s.raise k c w).received e = s.received e := rfl
@[simp] theorem raise_gpr (k : FaultKind) (c : FaultCause) (w : Word) : (s.raise k c w).gpr = s.gpr := rfl
@[simp] theorem raise_getReg (k : FaultKind) (c : FaultCause) (w : Word) (r : RegIdx) : (s.raise k c w).getReg r = s.getReg r := rfl
@[simp] theorem raise_acceptsHalf (k : FaultKind) (c : FaultCause) (w : Word) (x : Word) : (s.raise k c w).acceptsHalf x = s.acceptsHalf x := rfl
@[simp] theorem raise_acceptsWord (k : FaultKind) (c : FaultCause) (w : Word) (x : Word) : (s.raise k c w).acceptsWord x = s.acceptsWord x := rfl

/-! ## `hostReset` -/

@[simp] theorem hostReset_pc : (hostReset s).pc = 0#32 := rfl
@[simp] theorem hostReset_nextPC : (hostReset s).nextPC = 0#32 := rfl
@[simp] theorem hostReset_hi : (hostReset s).hi = 0#32 := rfl
@[simp] theorem hostReset_lo : (hostReset s).lo = 0#32 := rfl
@[simp] theorem hostReset_fault : (hostReset s).fault = none := rfl
@[simp] theorem hostReset_mem : (hostReset s).mem = s.mem := rfl
@[simp] theorem hostReset_backing : (hostReset s).backing = s.backing := rfl
@[simp] theorem hostReset_cop0 : (hostReset s).cop0 = s.cop0 := rfl
@[simp] theorem hostReset_portCalls : (hostReset s).portCalls = [] := rfl
@[simp] theorem hostReset_params : (hostReset s).params = s.params := rfl
@[simp] theorem hostReset_received (e : Config.BackingEvent) : (hostReset s).received e = s.received e := rfl
@[simp] theorem hostReset_gpr : (hostReset s).gpr = Vector.replicate 32 0#32 := rfl

/-! ## `setProgramCounter` -/

@[simp] theorem setProgramCounter_pc (a : Word) : (setProgramCounter a s).pc = a := rfl
@[simp] theorem setProgramCounter_nextPC (a : Word) : (setProgramCounter a s).nextPC = a + 4#32 := rfl
@[simp] theorem setProgramCounter_hi (a : Word) : (setProgramCounter a s).hi = s.hi := rfl
@[simp] theorem setProgramCounter_lo (a : Word) : (setProgramCounter a s).lo = s.lo := rfl
@[simp] theorem setProgramCounter_fault (a : Word) : (setProgramCounter a s).fault = s.fault := rfl
@[simp] theorem setProgramCounter_mem (a : Word) : (setProgramCounter a s).mem = s.mem := rfl
@[simp] theorem setProgramCounter_backing (a : Word) : (setProgramCounter a s).backing = s.backing := rfl
@[simp] theorem setProgramCounter_cop0 (a : Word) : (setProgramCounter a s).cop0 = s.cop0 := rfl
@[simp] theorem setProgramCounter_portCalls (a : Word) : (setProgramCounter a s).portCalls = s.portCalls := rfl
@[simp] theorem setProgramCounter_params (a : Word) : (setProgramCounter a s).params = s.params := rfl
@[simp] theorem setProgramCounter_received (a : Word) (e : Config.BackingEvent) : (setProgramCounter a s).received e = s.received e := rfl
@[simp] theorem setProgramCounter_gpr (a : Word) : (setProgramCounter a s).gpr = s.gpr := rfl
@[simp] theorem setProgramCounter_getReg (a : Word) (r : RegIdx) : (setProgramCounter a s).getReg r = s.getReg r := rfl
@[simp] theorem setProgramCounter_acceptsHalf (a : Word) (x : Word) : (setProgramCounter a s).acceptsHalf x = s.acceptsHalf x := rfl
@[simp] theorem setProgramCounter_acceptsWord (a : Word) (x : Word) : (setProgramCounter a s).acceptsWord x = s.acceptsWord x := rfl

/-! ## `hostWriteByte`: a byte of `FlatLE`, or an event of a bound accessor -/

theorem hostWriteByte_flatLE {s : State} (h : s.params.mem = .flatLE) (a : Word) (v : Byte) :
    hostWriteByte a v s = s.setMem (s.mem.writeByte a v) := by simp [hostWriteByte, h]

theorem hostWriteByte_bound {s : State} {k : Nat} (h : s.params.mem = .bound k) (a : Word) (v : Byte) :
    hostWriteByte a v s = s.receive (.hostByte a v) := by simp [hostWriteByte, h]

/-! ## Reset -/

theorem reset_eq_hostReset : hostReset State.reset = State.reset := rfl

@[simp] theorem reset_fault : State.reset.fault = none := rfl
@[simp] theorem reset_mem : State.reset.mem = [] := rfl
@[simp] theorem reset_backing : State.reset.backing = [] := rfl
@[simp] theorem reset_params : State.reset.params = Config.Params.default := rfl

end Sys2Proof.Machine
end

