-- ==== Sys2Proof/Laws/Regs.lean ====
section
/-! SUPPORT. The register file (10_state.md R21): what a write leaves each register reading as. -/

namespace Sys2Proof.Machine

/-- Register 0 always reads zero. -/
@[simp] theorem getReg_zero (s : State) : s.getReg 0#5 = 0#32 := rfl

/-- What every register reads as after a write: `v` in the register written, unless it is register 0. -/
theorem setReg_getReg (s : State) (d r : RegIdx) (v : Word) :
    (s.setReg d v).getReg r = if r = d ∧ r ≠ 0#5 then v else s.getReg r := by
  unfold State.getReg State.setReg writeGpr
  by_cases hr : r = 0#5
  · simp [hr]
  · by_cases hd : d = 0#5
    · have : r ≠ d := fun h => hr (h.trans hd)
      simp [hr, hd]
    · by_cases h : r = d
      · subst h; simp [hr]
      · have h' : ¬ d.toNat = r.toNat := fun e => h (BitVec.eq_of_toNat_eq e.symm)
        simp [hr, hd, h, h']

@[simp] theorem setReg_getReg_same (s : State) (d : RegIdx) (v : Word) (h : d ≠ 0#5) :
    (s.setReg d v).getReg d = v := by simp [setReg_getReg, h]

theorem setReg_getReg_other (s : State) (d r : RegIdx) (v : Word) (h : r ≠ d) :
    (s.setReg d v).getReg r = s.getReg r := by simp [setReg_getReg, h]

/-- A write to register 0 is discarded. -/
@[simp] theorem setReg_zero (s : State) (v : Word) : s.setReg 0#5 v = s := rfl

/-- The stored register 0 is never written. -/
@[simp] theorem writeGpr_gpr_zero (g : Vector Word 32) (d : RegIdx) (v : Word) : (writeGpr g d v)[0] = g[0] := by
  unfold writeGpr
  split
  · rfl
  · rename_i h
    have h' : ¬ d.toNat = 0 := fun e => h (BitVec.eq_of_toNat_eq e)
    simp [h']

/-- Every register reads zero after Reset. -/
@[simp] theorem hostReset_getReg (s : State) (r : RegIdx) : (hostReset s).getReg r = 0#32 := by
  unfold State.getReg
  simp

end Sys2Proof.Machine
end

