-- ==== Sys2Proof/Laws/Memory.lean ====
section
/-! SUPPORT. Memory (20_memory.md R41): every operation keeps the canonical form, a read after a write gives the value
written, and a write leaves every other address alone. -/

namespace Sys2Proof.Machine

/-! ## The canonical form -/

theorem wfFrom_cons (lo k : Nat) (b : Byte) (m : Memory) :
    Memory.wfFrom lo ((k, b) :: m) = true ↔
      lo ≤ k ∧ k < 2 ^ 32 ∧ b ≠ Memory.unlisted ∧ Memory.wfFrom (k + 1) m = true := by
  simp [Memory.wfFrom, and_assoc]

theorem wfFrom_mono {lo lo' : Nat} (h : lo' ≤ lo) : ∀ {m : Memory}, Memory.wfFrom lo m = true → Memory.wfFrom lo' m = true
  | [], _ => rfl
  | (k, b) :: m, hm => by
    rw [wfFrom_cons] at hm ⊢
    exact ⟨h.trans hm.1, hm.2⟩

theorem wfFrom_write {lo a : Nat} (v : Byte) (ha : lo ≤ a) (ha' : a < 2 ^ 32) :
    ∀ {m : Memory}, Memory.wfFrom lo m = true → Memory.wfFrom lo (m.write a v) = true
  | [], _ => by
    unfold Memory.write
    split
    · rfl
    · rename_i hv
      exact (wfFrom_cons ..).2 ⟨ha, ha', hv, rfl⟩
  | (k, b) :: m, hm => by
    have h := (wfFrom_cons ..).1 hm
    unfold Memory.write
    split
    · rename_i hak
      split
      · exact hm
      · rename_i hv
        exact (wfFrom_cons ..).2 ⟨ha, ha', hv, (wfFrom_cons ..).2 ⟨hak, h.2⟩⟩
    · rename_i hak
      split
      · rename_i he
        split
        · exact wfFrom_mono (by omega) h.2.2.2
        · rename_i hv
          exact (wfFrom_cons ..).2 ⟨ha, ha', hv, he ▸ h.2.2.2⟩
      · exact (wfFrom_cons ..).2 ⟨h.1, h.2.1, h.2.2.1, wfFrom_write v (by omega) ha' h.2.2.2⟩

/-- A byte write keeps the canonical form. -/
theorem wf_writeByte {m : Memory} (a : Word) (v : Byte) (h : m.wf = true) : (m.writeByte a v).wf = true :=
  wfFrom_write v (Nat.zero_le _) a.isLt h

theorem wf_writeHalf {m : Memory} (a : Word) (v : Half) (h : m.wf = true) : (m.writeHalf a v).wf = true :=
  wf_writeByte _ _ (wf_writeByte _ _ h)

theorem wf_writeWord {m : Memory} (a v : Word) (h : m.wf = true) : (m.writeWord a v).wf = true :=
  wf_writeByte _ _ (wf_writeByte _ _ (wf_writeByte _ _ (wf_writeByte _ _ h)))

/-! ## Reading one address after a write -/

theorem read_below {lo a : Nat} (h : a < lo) : ∀ {m : Memory}, Memory.wfFrom lo m = true → m.read a = Memory.unlisted
  | [], _ => rfl
  | (k, b) :: m, hm => by
    have hm' := (wfFrom_cons ..).1 hm
    have hne : ¬ a = k := by omega
    simp only [Memory.read, hne, if_false]
    exact read_below (by omega) hm'.2.2.2

theorem read_write {lo : Nat} (a x : Nat) (v : Byte) :
    ∀ {m : Memory}, Memory.wfFrom lo m = true → (m.write a v).read x = if x = a then v else m.read x
  | [], _ => by
    by_cases hx : x = a <;> by_cases hv : v = Memory.unlisted <;> simp [Memory.write, Memory.read, hx, hv]
  | (k, b) :: m, hm => by
    have hm' := (wfFrom_cons ..).1 hm
    have ih := read_write a x v hm'.2.2.2
    by_cases h1 : a < k
    · by_cases hv : v = Memory.unlisted
      · have hbelow : a < k → Memory.read ((k, b) :: m) a = Memory.unlisted := fun h =>
          read_below (lo := k) h ((wfFrom_cons ..).2 ⟨le_refl k, hm'.2⟩)
        by_cases hx : x = a
        · subst hx; simp [Memory.write, h1, hv, hbelow h1]
        · simp [Memory.write, h1, hv, hx]
      · simp [Memory.write, h1, hv, Memory.read]
    · by_cases h2 : a = k
      · subst h2
        by_cases hv : v = Memory.unlisted
        · by_cases hx : x = a
          · subst hx
            simp [Memory.write, hv, read_below (Nat.lt_succ_self x) hm'.2.2.2]
          · simp [Memory.write, hv, hx, Memory.read]
        · by_cases hx : x = a <;> simp [Memory.write, hv, hx, Memory.read]
      · have h3 : ¬ k = a := fun e => h2 e.symm
        by_cases hx : x = k
        · subst hx; simp [Memory.write, h1, h2, h3, Memory.read]
        · simp [Memory.write, h1, h2, hx, Memory.read, ih]

/-- Every byte after a byte write, in a memory of canonical form. -/
theorem byteAt_writeByte {m : Memory} (h : m.wf = true) (a x : Word) (v : Byte) :
    (m.writeByte a v).byteAt x = if x = a then v else m.byteAt x := by
  unfold Memory.byteAt Memory.writeByte
  rw [read_write _ _ _ h]
  by_cases hx : x = a
  · simp [hx]
  · have : ¬ x.toNat = a.toNat := fun e => hx (BitVec.eq_of_toNat_eq e)
    simp [hx, this]

/-- Every byte after a 16-bit write: the two bytes written, little-endian, and the rest as before. -/
theorem byteAt_writeHalf {m : Memory} (h : m.wf = true) (a x : Word) (v : Half) :
    (m.writeHalf a v).byteAt x =
      if x = a + 1#32 then v.extractLsb' 8 8 else if x = a then v.extractLsb' 0 8 else m.byteAt x := by
  unfold Memory.writeHalf
  rw [byteAt_writeByte (wf_writeByte _ _ h), byteAt_writeByte h]

/-- Every byte after a 32-bit write: the four bytes written, little-endian, and the rest as before. -/
theorem byteAt_writeWord {m : Memory} (h : m.wf = true) (a x v : Word) :
    (m.writeWord a v).byteAt x =
      if x = a + 3#32 then v.extractLsb' 24 8 else if x = a + 2#32 then v.extractLsb' 16 8
      else if x = a + 1#32 then v.extractLsb' 8 8 else if x = a then v.extractLsb' 0 8 else m.byteAt x := by
  unfold Memory.writeWord
  rw [byteAt_writeByte (wf_writeByte _ _ (wf_writeByte _ _ (wf_writeByte _ _ h))),
    byteAt_writeByte (wf_writeByte _ _ (wf_writeByte _ _ h)), byteAt_writeByte (wf_writeByte _ _ h),
    byteAt_writeByte h]

/-- Four consecutive addresses are distinct modulo 2^32. -/
theorem addr_ne (a : Word) {i j : Word} (h : i ≠ j) : a + i ≠ a + j := fun e => h ((BitVec.add_right_inj a).1 e)

theorem addr_ne_self (a : Word) {i : Word} (h : i ≠ 0#32) : a + i ≠ a := fun e => h (by
  have : a + i = a + 0#32 := by simpa using e
  exact (BitVec.add_right_inj a).1 this)

/-- A word is the concatenation of its bytes. -/
theorem word_of_bytes (v : Word) :
    v.extractLsb' 24 8 ++ v.extractLsb' 16 8 ++ v.extractLsb' 8 8 ++ v.extractLsb' 0 8 = v := by
  ext i hi
  simp only [BitVec.getElem_append, BitVec.getElem_extractLsb']
  split
  · simp [BitVec.getLsbD_eq_getElem hi]
  · split
    · rw [show 8 + (i - 8) = i by omega, BitVec.getLsbD_eq_getElem hi]
    · split
      · rw [show 16 + (i - 8 - 8) = i by omega, BitVec.getLsbD_eq_getElem hi]
      · rw [show 24 + (i - 8 - 8 - 8) = i by omega, BitVec.getLsbD_eq_getElem hi]

theorem half_of_bytes (v : Half) : v.extractLsb' 8 8 ++ v.extractLsb' 0 8 = v := by
  ext i hi
  simp only [BitVec.getElem_append, BitVec.getElem_extractLsb']
  split
  · simp [BitVec.getLsbD_eq_getElem hi]
  · rw [show 8 + (i - 8) = i by omega, BitVec.getLsbD_eq_getElem hi]

/-- Canonical memories that read the same everywhere are the same list. -/
theorem ext_of_wfFrom {lo : Nat} : ∀ {m n : Memory}, Memory.wfFrom lo m = true → Memory.wfFrom lo n = true →
    (∀ a, m.read a = n.read a) → m = n
  | [], [], _, _, _ => rfl
  | [], (k, b) :: n, _, hn, h => by
    have hn' := (wfFrom_cons ..).1 hn
    have := h k
    simp only [Memory.read, if_true] at this
    exact absurd this.symm hn'.2.2.1
  | (k, b) :: m, [], hm, _, h => by
    have hm' := (wfFrom_cons ..).1 hm
    have := h k
    simp only [Memory.read, if_true] at this
    exact absurd this hm'.2.2.1
  | (k, b) :: m, (k', b') :: n, hm, hn, h => by
    have hm' := (wfFrom_cons ..).1 hm
    have hn' := (wfFrom_cons ..).1 hn
    have hk : k = k' := by
      rcases Nat.lt_trichotomy k k' with hlt | heq | hgt
      · have h1 := h k
        rw [read_below hlt ((wfFrom_cons ..).2 ⟨le_refl k', hn'.2⟩)] at h1
        simp only [Memory.read, if_true] at h1
        exact absurd h1 hm'.2.2.1
      · exact heq
      · have h1 := h k'
        rw [read_below hgt ((wfFrom_cons ..).2 ⟨le_refl k, hm'.2⟩)] at h1
        simp only [Memory.read, if_true] at h1
        exact absurd h1.symm hn'.2.2.1
    subst hk
    have hb : b = b' := by simpa [Memory.read] using h k
    subst hb
    have ht : m = n := ext_of_wfFrom hm'.2.2.2 hn'.2.2.2 fun a => by
      by_cases ha : a = k
      · subst ha
        rw [read_below (Nat.lt_succ_self a) hm'.2.2.2, read_below (Nat.lt_succ_self a) hn'.2.2.2]
      · simpa [Memory.read, ha] using h a
    rw [ht]

/-! ## Reading back a write, and alignment -/

/-- A 32-bit read gives the word just written at the address. -/
theorem wordAt_writeWord {m : Memory} (h : m.wf = true) (a v : Word) : (m.writeWord a v).wordAt a = v := by
  have n1 := addr_ne_self a (i := 1#32) (by decide)
  have n2 := addr_ne_self a (i := 2#32) (by decide)
  have n3 := addr_ne_self a (i := 3#32) (by decide)
  have n12 := addr_ne a (i := 1#32) (j := 2#32) (by decide)
  have n13 := addr_ne a (i := 1#32) (j := 3#32) (by decide)
  have n23 := addr_ne a (i := 2#32) (j := 3#32) (by decide)
  unfold Memory.wordAt
  simp only [byteAt_writeWord h, if_true, if_neg n12, if_neg n13, if_neg n23, if_neg n1.symm, if_neg n2.symm,
    if_neg n3.symm]
  exact word_of_bytes v

/-- A 16-bit read gives the halfword just written at the address. -/
theorem halfAt_writeHalf {m : Memory} (h : m.wf = true) (a : Word) (v : Half) : (m.writeHalf a v).halfAt a = v := by
  have n1 := addr_ne_self a (i := 1#32) (by decide)
  unfold Memory.halfAt
  simp only [byteAt_writeHalf h, if_true, if_neg n1.symm]
  exact half_of_bytes v

theorem alignedHalf_iff (a : Word) : alignedHalf a = true ↔ a.toNat % 2 = 0 := by
  simp only [alignedHalf, beq_iff_eq, ← BitVec.toNat_inj]; simp

theorem alignedWord_iff (a : Word) : alignedWord a = true ↔ a.toNat % 4 = 0 := by
  simp only [alignedWord, beq_iff_eq, ← BitVec.toNat_inj]; simp

/-! ## The accessor operations -/

section FlatLE

variable {s : State} (h : s.params.mem = .flatLE)
include h

theorem read8_flatLE (a : Word) : s.read8 a = some (s.mem.byteAt a) := by simp [State.read8, h]

theorem read16_flatLE (a : Word) : s.read16 a = if s.acceptsHalf a then some (s.mem.halfAt a) else none := by
  simp [State.read16, h]

theorem read32_flatLE (a : Word) : s.read32 a = if s.acceptsWord a then some (s.mem.wordAt a) else none := by
  simp [State.read32, h]

theorem write8_flatLE (a : Word) (v : Byte) : s.write8 a v = some (s.mem.writeByte a v) := by simp [State.write8, h]

theorem write16_flatLE (a : Word) (v : Half) :
    s.write16 a v = if s.acceptsHalf a then some (s.mem.writeHalf a v) else none := by simp [State.write16, h]

theorem write32_flatLE (a v : Word) :
    s.write32 a v = if s.acceptsWord a then some (s.mem.writeWord a v) else none := by simp [State.write32, h]

end FlatLE

section Bound

variable {s : State} {k : Nat} (h : s.params.mem = .bound k)
include h

theorem read8_bound (a : Word) : s.read8 a = boundRead8 k s.backing a := by simp [State.read8, h]

theorem read16_bound (a : Word) : s.read16 a = boundRead16 k s.backing a := by simp [State.read16, h]

theorem read32_bound (a : Word) : s.read32 a = boundRead32 k s.backing a := by simp [State.read32, h]

theorem write8_bound (a : Word) (v : Byte) : s.write8 a v = s.boundWrite k (.write8 a v) := by simp [State.write8, h]

theorem write16_bound (a : Word) (v : Half) : s.write16 a v = s.boundWrite k (.write16 a v) := by
  simp [State.write16, h]

theorem write32_bound (a v : Word) : s.write32 a v = s.boundWrite k (.write32 a v) := by simp [State.write32, h]

end Bound

/-- A bound accessor never touches the byte array. -/
theorem boundWrite_eq {s : State} {k : Nat} {c : Config.MemCall} {m : Memory} (h : s.boundWrite k c = some m) :
    m = s.mem := by
  unfold State.boundWrite at h
  split at h
  · injection h with h; exact h.symm
  · cases h

/-- The round trip of a bound accessor (20_memory.md R56; log 12). -/
@[simp] theorem boundRead8_write8 (k : Nat) (es : List Config.BackingEvent) (a : Word) (v : Byte) :
    boundRead8 k (.call (.write8 a v) :: es) a = some v := by simp [boundRead8]

theorem boundRead16_write16 (k : Nat) (es : List Config.BackingEvent) {a : Word} (v : Half) (ha : alignedHalf a = true) :
    boundRead16 k (.call (.write16 a v) :: es) a = some v := by simp [boundRead16, ha]

theorem boundRead32_write32 (k : Nat) (es : List Config.BackingEvent) {a : Word} (v : Word) (ha : alignedWord a = true) :
    boundRead32 k (.call (.write32 a v) :: es) a = some v := by simp [boundRead32, ha]

end Sys2Proof.Machine
end

