-- ==== Sys2Proof/Laws/Exec.lean ====
section
/-! SUPPORT. What one instruction, and one step, can do: said once, cited instead of unfolding the meanings. -/

set_option Elab.async false

namespace Sys2Proof.Machine

/-! ## What an instruction can do -/

/-- One store's effect on the byte array, a bound accessor's being none. -/
inductive Stored (m : Memory) : Memory → Prop where
  | byte (a : Word) (v : Byte) : Stored m (m.writeByte a v)
  | half (a : Word) (v : Half) : Stored m (m.writeHalf a v)
  | word (a v : Word) : Stored m (m.writeWord a v)
  | bound : Stored m m

/-- Everything an instruction that completes or faults can do to the state at the fetch. -/
inductive Effect (s : State) : State → Prop where
  | plain : Effect s s.advance
  | reg (d : RegIdx) (v : Word) : Effect s (s.advance.setReg d v)
  | hiLo (h l : Word) : Effect s (s.advance.setHiLo h l)
  | fault (k : FaultKind) (c : FaultCause) (w : Word) : Effect s (s.raise k c w)
  | load (call : Config.MemCall) (d : RegIdx) (v : Word) : Effect s ((s.advance.callMem call).setReg d v)
  | store (call : Config.MemCall) (m : Memory) (h : Stored s.mem m) : Effect s ((s.advance.callMem call).setMem m)
  | jump (target : Word) : Effect s (s.advance.setNextPC target)
  | link (d : RegIdx) (target : Word) : Effect s ((s.advance.setReg d (s.nextPC + 4#32)).setNextPC target)
  | cop0Get (d i : RegIdx) : Effect s ((s.advance.callCop0 (.getRegister i)).setReg d (s.cop0Get i))
  | cop0Set (i : RegIdx) (v : Word) : Effect s (s.advance.callCop0 (.setRegister i v))

/-- One store keeps the canonical form. -/
theorem Stored.wf {m n : Memory} (h : Stored m n) (hm : m.wf = true) : n.wf = true := by
  cases h with
  | byte a v => exact wf_writeByte a v hm
  | half a v => exact wf_writeHalf a v hm
  | word a v => exact wf_writeWord a v hm
  | bound => exact hm

/-! ## One lemma per shape -/

theorem writeReg_effect {s t : State} {d : RegIdx} {v : Word} (h : writeReg s d v = .next t) : Effect s t := by
  injection h with h; exact h ▸ .reg d v

theorem writeHiLo_effect {s t : State} {x y : Word} (h : writeHiLo s x y = .next t) : Effect s t := by
  injection h with h; exact h ▸ .hiLo x y

theorem faultWith_effect {s t : State} {k : FaultKind} {c : FaultCause} {w : Word}
    (h : faultWith s k c w = .next t) : Effect s t := by
  injection h with h; exact h ▸ .fault k c w

theorem loadInto_effect {s t : State} {ea : Word} {call : Config.MemCall} {d : RegIdx} {got : Option Word}
    (h : loadInto s ea call d got = .next t) : Effect s t := by
  cases got with
  | none => cases h
  | some v => injection h with h; exact h ▸ .load call d v

theorem storeTo_effect {s t : State} {ea : Word} {call : Config.MemCall} {got : Option Memory}
    (hg : ∀ m, got = some m → Stored s.mem m) (h : storeTo s ea call got = .next t) : Effect s t := by
  cases got with
  | none => cases h
  | some m => injection h with h; exact h ▸ .store call m (hg m rfl)

theorem jumpTo_effect {s t : State} {a : Word} (h : jumpTo s a = .next t) : Effect s t := by
  injection h with h; exact h ▸ .jump a

theorem jumpAndLink_effect {s t : State} {d : RegIdx} {a : Word} (h : jumpAndLink s d a = .next t) : Effect s t := by
  injection h with h; exact h ▸ .link d a

theorem branchIf_effect {s t : State} {c : Bool} {off : Word} (h : branchIf s c off = .next t) : Effect s t := by
  cases c with
  | false => injection h with h; exact h ▸ .plain
  | true => exact jumpTo_effect h

theorem branchLinkIf_effect {s t : State} {c : Bool} {off : Word} (h : branchLinkIf s c off = .next t) :
    Effect s t := by
  cases c with
  | false => injection h with h; exact h ▸ .plain
  | true => exact jumpAndLink_effect h

theorem writeRegOrOverflow_effect {s t : State} {o : Bool} {d : RegIdx} {v w : Word}
    (h : writeRegOrOverflow s o d v w = .next t) : Effect s t := by
  unfold writeRegOrOverflow at h
  split at h
  · exact faultWith_effect h
  · exact writeReg_effect h

theorem execCop0_effect {s t : State} {sub rt rd : RegIdx} {low : BitVec 11} (h : execCop0 sub rt rd low s = .next t) :
    Effect s t := by
  unfold execCop0 at h
  split at h
  · injection h with h; exact h ▸ .cop0Get rt rd
  · split at h
    · injection h with h; exact h ▸ .cop0Set rd _
    · exact faultWith_effect h

theorem boundWrite_stored {s : State} {k : Nat} {c : Config.MemCall} {m : Memory} (h : s.boundWrite k c = some m) :
    Stored s.mem m := boundWrite_eq h ▸ .bound

theorem write8_stored {s : State} {a : Word} {v : Byte} {m : Memory} (h : s.write8 a v = some m) : Stored s.mem m := by
  unfold State.write8 at h
  split at h
  · injection h with h; exact h ▸ .byte a v
  · exact boundWrite_stored h

theorem write16_stored {s : State} {a : Word} {v : Half} {m : Memory} (h : s.write16 a v = some m) :
    Stored s.mem m := by
  unfold State.write16 at h
  split at h
  · split at h
    · injection h with h; exact h ▸ .half a v
    · cases h
  · exact boundWrite_stored h

theorem write32_stored {s : State} {a v : Word} {m : Memory} (h : s.write32 a v = some m) : Stored s.mem m := by
  unfold State.write32 at h
  split at h
  · split at h
    · injection h with h; exact h ▸ .word a v
    · cases h
  · exact boundWrite_stored h

/-- What any instruction can do. -/
theorem exec_effect {i : Instr} {s t : State} (h : exec i s = .next t) : Effect s t := by
  cases i with
  | sll => exact writeReg_effect h
  | srl => exact writeReg_effect h
  | sra => exact writeReg_effect h
  | sllv => exact writeReg_effect h
  | srlv => exact writeReg_effect h
  | srav => exact writeReg_effect h
  | jr => exact jumpTo_effect h
  | jalr => exact jumpAndLink_effect h
  | syscall => exact faultWith_effect h
  | brk => exact faultWith_effect h
  | mfhi => exact writeReg_effect h
  | mthi => exact writeHiLo_effect h
  | mflo => exact writeReg_effect h
  | mtlo => exact writeHiLo_effect h
  | mult => exact writeHiLo_effect h
  | multu => exact writeHiLo_effect h
  | div => exact writeHiLo_effect h
  | divu => exact writeHiLo_effect h
  | add => exact writeRegOrOverflow_effect h
  | addu => exact writeReg_effect h
  | sub => exact writeRegOrOverflow_effect h
  | subu => exact writeReg_effect h
  | and => exact writeReg_effect h
  | or => exact writeReg_effect h
  | xor => exact writeReg_effect h
  | nor => exact writeReg_effect h
  | slt => exact writeReg_effect h
  | sltu => exact writeReg_effect h
  | bltzal => exact branchLinkIf_effect h
  | bgezal => exact branchLinkIf_effect h
  | bltz => exact branchIf_effect h
  | bgez => exact branchIf_effect h
  | j => exact jumpTo_effect h
  | jal => exact jumpAndLink_effect h
  | beq => exact branchIf_effect h
  | bne => exact branchIf_effect h
  | blez => exact branchIf_effect h
  | bgtz => exact branchIf_effect h
  | addi => exact writeRegOrOverflow_effect h
  | addiu => exact writeReg_effect h
  | slti => exact writeReg_effect h
  | sltiu => exact writeReg_effect h
  | andi => exact writeReg_effect h
  | ori => exact writeReg_effect h
  | xori => exact writeReg_effect h
  | lui => exact writeReg_effect h
  | cop0 => exact execCop0_effect h
  | cop1 => exact faultWith_effect h
  | cop2 => exact faultWith_effect h
  | cop3 => exact faultWith_effect h
  | lb => unfold exec execLb at h; exact loadInto_effect h
  | lh => exact loadInto_effect h
  | lwl => exact faultWith_effect h
  | lw => exact loadInto_effect h
  | lbu => unfold exec execLbu at h; exact loadInto_effect h
  | lhu => exact loadInto_effect h
  | lwr => exact faultWith_effect h
  | sb => unfold exec execSb at h; exact storeTo_effect (fun _ hm => write8_stored hm) h
  | sh => exact storeTo_effect (fun _ hm => write16_stored hm) h
  | swl => exact faultWith_effect h
  | sw => exact storeTo_effect (fun _ hm => write32_stored hm) h
  | swr => exact faultWith_effect h
  | lwc0 => exact faultWith_effect h
  | lwc1 => exact faultWith_effect h
  | lwc2 => exact faultWith_effect h
  | lwc3 => exact faultWith_effect h
  | swc0 => exact faultWith_effect h
  | swc1 => exact faultWith_effect h
  | swc2 => exact faultWith_effect h
  | swc3 => exact faultWith_effect h
  | invalidSpecial => exact faultWith_effect h
  | invalid => exact faultWith_effect h

/-! ## What a step can do -/

/-- A step that answers a next state: no fault was latched, the accessor gave a word, and the handler of that word
ran. -/
theorem step_next {s t : State} (h : step s = .next t) :
    s.fault = none ∧ ∃ w, s.fetch = some w ∧ exec (decode w) s.fetched = .next t := by
  unfold step at h
  split at h
  · cases h
  · rename_i hf
    split at h
    · cases h
    · rename_i w hw
      exact ⟨hf, w, hw, h⟩

/-- A step whose fetch succeeds runs the handler of the word fetched. -/
theorem step_of_fetch {s : State} {w : Word} (hf : s.fault = none) (hw : s.fetch = some w) :
    step s = exec (decode w) s.fetched := by
  unfold step
  rw [hf]
  simp only [hw]

/-- On `FlatLE`, under `bytewise` or at an aligned `pc`, the fetch gives the word there. -/
theorem fetch_of_accepts {s : State} (hm : s.params.mem = .flatLE) (h : s.acceptsWord s.pc = true) :
    s.fetch = some (s.mem.wordAt s.pc) := by
  simp [State.fetch, read32_flatLE hm, h]

/-- What the host places for the next fetch is what it reads, at an aligned `pc` whatever the accessor. -/
theorem fetch_withFetchWord {s : State} (hw : s.mem.wf = true) (ha : alignedWord s.pc = true) (nbits w : Nat) :
    (s.withFetchWord nbits w).fetch = some (tableWord nbits w) := by
  cases hm : s.params.mem with
  | flatLE =>
    have hs : s.withFetchWord nbits w = s.setMem (s.mem.writeWord s.pc (tableWord nbits w)) := by
      simp [State.withFetchWord, hm]
    have hc : s.acceptsWord s.pc = true := by unfold State.acceptsWord; split <;> simp [ha]
    rw [hs, fetch_of_accepts (by simpa using hm) (by simpa using hc)]
    simp [wordAt_writeWord hw]
  | bound k =>
    have hs : s.withFetchWord nbits w = s.receive (.call (.write32 s.pc (tableWord nbits w))) := by
      simp [State.withFetchWord, hm]
    rw [hs, State.fetch, read32_bound (k := k) (by simpa using hm)]
    simp [received_bound hm, boundRead32_write32 k _ _ ha]

theorem acceptsWord_of_aligned {s : State} {a : Word} (h : alignedWord a = true) : s.acceptsWord a = true := by
  unfold State.acceptsWord; split <;> simp [h]

theorem acceptsHalf_of_aligned {s : State} {a : Word} (h : alignedHalf a = true) : s.acceptsHalf a = true := by
  unfold State.acceptsHalf; split <;> simp [h]

end Sys2Proof.Machine
end

