-- ==== Sys2Proof/Laws/PerInstr.lean ====
section
/-! SUPPORT. Laws of instructions as syntax, one lemma per constructor. -/

set_option Elab.async false

namespace Sys2Proof.Laws

/-- Decoding the word of a well-formed instruction gives the instruction back, every field included. -/
def RoundTrip.Statement (i : Instr) : Prop := i.wellFormed = true → decode (encode i) = i

theorem RoundTrip.sll (rs rt rd : RegIdx) (shamt : BitVec 5) :
    RoundTrip.Statement (.sll rs rt rd shamt) := by intro _; simp [encode, decode, decodeSpecial]

theorem RoundTrip.srl (rs rt rd : RegIdx) (shamt : BitVec 5) :
    RoundTrip.Statement (.srl rs rt rd shamt) := by intro _; simp [encode, decode, decodeSpecial]

theorem RoundTrip.sra (rs rt rd : RegIdx) (shamt : BitVec 5) :
    RoundTrip.Statement (.sra rs rt rd shamt) := by intro _; simp [encode, decode, decodeSpecial]

theorem RoundTrip.sllv (rs rt rd : RegIdx) (shamt : BitVec 5) :
    RoundTrip.Statement (.sllv rs rt rd shamt) := by intro _; simp [encode, decode, decodeSpecial]

theorem RoundTrip.srlv (rs rt rd : RegIdx) (shamt : BitVec 5) :
    RoundTrip.Statement (.srlv rs rt rd shamt) := by intro _; simp [encode, decode, decodeSpecial]

theorem RoundTrip.srav (rs rt rd : RegIdx) (shamt : BitVec 5) :
    RoundTrip.Statement (.srav rs rt rd shamt) := by intro _; simp [encode, decode, decodeSpecial]

theorem RoundTrip.jr (rs rt rd : RegIdx) (shamt : BitVec 5) :
    RoundTrip.Statement (.jr rs rt rd shamt) := by intro _; simp [encode, decode, decodeSpecial]

theorem RoundTrip.jalr (rs rt rd : RegIdx) (shamt : BitVec 5) :
    RoundTrip.Statement (.jalr rs rt rd shamt) := by intro _; simp [encode, decode, decodeSpecial]

theorem RoundTrip.syscall (code : BitVec 20) :
    RoundTrip.Statement (.syscall code) := by intro _; simp [encode, decode, decodeSpecial]

theorem RoundTrip.brk (code : BitVec 20) :
    RoundTrip.Statement (.brk code) := by intro _; simp [encode, decode, decodeSpecial]

theorem RoundTrip.mfhi (rs rt rd : RegIdx) (shamt : BitVec 5) :
    RoundTrip.Statement (.mfhi rs rt rd shamt) := by intro _; simp [encode, decode, decodeSpecial]

theorem RoundTrip.mthi (rs rt rd : RegIdx) (shamt : BitVec 5) :
    RoundTrip.Statement (.mthi rs rt rd shamt) := by intro _; simp [encode, decode, decodeSpecial]

theorem RoundTrip.mflo (rs rt rd : RegIdx) (shamt : BitVec 5) :
    RoundTrip.Statement (.mflo rs rt rd shamt) := by intro _; simp [encode, decode, decodeSpecial]

theorem RoundTrip.mtlo (rs rt rd : RegIdx) (shamt : BitVec 5) :
    RoundTrip.Statement (.mtlo rs rt rd shamt) := by intro _; simp [encode, decode, decodeSpecial]

theorem RoundTrip.mult (rs rt rd : RegIdx) (shamt : BitVec 5) :
    RoundTrip.Statement (.mult rs rt rd shamt) := by intro _; simp [encode, decode, decodeSpecial]

theorem RoundTrip.multu (rs rt rd : RegIdx) (shamt : BitVec 5) :
    RoundTrip.Statement (.multu rs rt rd shamt) := by intro _; simp [encode, decode, decodeSpecial]

theorem RoundTrip.div (rs rt rd : RegIdx) (shamt : BitVec 5) :
    RoundTrip.Statement (.div rs rt rd shamt) := by intro _; simp [encode, decode, decodeSpecial]

theorem RoundTrip.divu (rs rt rd : RegIdx) (shamt : BitVec 5) :
    RoundTrip.Statement (.divu rs rt rd shamt) := by intro _; simp [encode, decode, decodeSpecial]

theorem RoundTrip.add (rs rt rd : RegIdx) (shamt : BitVec 5) :
    RoundTrip.Statement (.add rs rt rd shamt) := by intro _; simp [encode, decode, decodeSpecial]

theorem RoundTrip.addu (rs rt rd : RegIdx) (shamt : BitVec 5) :
    RoundTrip.Statement (.addu rs rt rd shamt) := by intro _; simp [encode, decode, decodeSpecial]

theorem RoundTrip.sub (rs rt rd : RegIdx) (shamt : BitVec 5) :
    RoundTrip.Statement (.sub rs rt rd shamt) := by intro _; simp [encode, decode, decodeSpecial]

theorem RoundTrip.subu (rs rt rd : RegIdx) (shamt : BitVec 5) :
    RoundTrip.Statement (.subu rs rt rd shamt) := by intro _; simp [encode, decode, decodeSpecial]

theorem RoundTrip.and (rs rt rd : RegIdx) (shamt : BitVec 5) :
    RoundTrip.Statement (.and rs rt rd shamt) := by intro _; simp [encode, decode, decodeSpecial]

theorem RoundTrip.or (rs rt rd : RegIdx) (shamt : BitVec 5) :
    RoundTrip.Statement (.or rs rt rd shamt) := by intro _; simp [encode, decode, decodeSpecial]

theorem RoundTrip.xor (rs rt rd : RegIdx) (shamt : BitVec 5) :
    RoundTrip.Statement (.xor rs rt rd shamt) := by intro _; simp [encode, decode, decodeSpecial]

theorem RoundTrip.nor (rs rt rd : RegIdx) (shamt : BitVec 5) :
    RoundTrip.Statement (.nor rs rt rd shamt) := by intro _; simp [encode, decode, decodeSpecial]

theorem RoundTrip.slt (rs rt rd : RegIdx) (shamt : BitVec 5) :
    RoundTrip.Statement (.slt rs rt rd shamt) := by intro _; simp [encode, decode, decodeSpecial]

theorem RoundTrip.sltu (rs rt rd : RegIdx) (shamt : BitVec 5) :
    RoundTrip.Statement (.sltu rs rt rd shamt) := by intro _; simp [encode, decode, decodeSpecial]

theorem RoundTrip.bltzal (rs : RegIdx) (imm : Half) :
    RoundTrip.Statement (.bltzal rs imm) := by intro _; simp [encode, decode, decodeBranchLink, linkSelector, geSelector]

theorem RoundTrip.bgezal (rs : RegIdx) (imm : Half) :
    RoundTrip.Statement (.bgezal rs imm) := by intro _; simp [encode, decode, decodeBranchLink, linkSelector, geSelector]

theorem RoundTrip.bltz (rs rt : RegIdx) (imm : Half) :
    RoundTrip.Statement (.bltz rs rt imm) := by
  intro h
  simp only [Instr.wellFormed, Bool.and_eq_true, beq_iff_eq, bne_iff_ne] at h
  have h2 : (rt.extractLsb' 1 4 == 0b1000#4) = false := by simpa using h.2
  simp [encode, decode, decodeBranchLink, linkSelector, geSelector, h.1, h2]

theorem RoundTrip.bgez (rs rt : RegIdx) (imm : Half) :
    RoundTrip.Statement (.bgez rs rt imm) := by
  intro h
  simp only [Instr.wellFormed, Bool.and_eq_true, beq_iff_eq, bne_iff_ne] at h
  have h2 : (rt.extractLsb' 1 4 == 0b1000#4) = false := by simpa using h.2
  simp [encode, decode, decodeBranchLink, linkSelector, geSelector, h.1, h2]

theorem RoundTrip.j (target : BitVec 26) :
    RoundTrip.Statement (.j target) := by intro _; simp [encode, decode]

theorem RoundTrip.jal (target : BitVec 26) :
    RoundTrip.Statement (.jal target) := by intro _; simp [encode, decode]

theorem RoundTrip.beq (rs rt : RegIdx) (imm : Half) :
    RoundTrip.Statement (.beq rs rt imm) := by intro _; simp [encode, decode]

theorem RoundTrip.bne (rs rt : RegIdx) (imm : Half) :
    RoundTrip.Statement (.bne rs rt imm) := by intro _; simp [encode, decode]

theorem RoundTrip.blez (rs rt : RegIdx) (imm : Half) :
    RoundTrip.Statement (.blez rs rt imm) := by intro _; simp [encode, decode]

theorem RoundTrip.bgtz (rs rt : RegIdx) (imm : Half) :
    RoundTrip.Statement (.bgtz rs rt imm) := by intro _; simp [encode, decode]

theorem RoundTrip.addi (rs rt : RegIdx) (imm : Half) :
    RoundTrip.Statement (.addi rs rt imm) := by intro _; simp [encode, decode]

theorem RoundTrip.addiu (rs rt : RegIdx) (imm : Half) :
    RoundTrip.Statement (.addiu rs rt imm) := by intro _; simp [encode, decode]

theorem RoundTrip.slti (rs rt : RegIdx) (imm : Half) :
    RoundTrip.Statement (.slti rs rt imm) := by intro _; simp [encode, decode]

theorem RoundTrip.sltiu (rs rt : RegIdx) (imm : Half) :
    RoundTrip.Statement (.sltiu rs rt imm) := by intro _; simp [encode, decode]

theorem RoundTrip.andi (rs rt : RegIdx) (imm : Half) :
    RoundTrip.Statement (.andi rs rt imm) := by intro _; simp [encode, decode]

theorem RoundTrip.ori (rs rt : RegIdx) (imm : Half) :
    RoundTrip.Statement (.ori rs rt imm) := by intro _; simp [encode, decode]

theorem RoundTrip.xori (rs rt : RegIdx) (imm : Half) :
    RoundTrip.Statement (.xori rs rt imm) := by intro _; simp [encode, decode]

theorem RoundTrip.lui (rs rt : RegIdx) (imm : Half) :
    RoundTrip.Statement (.lui rs rt imm) := by intro _; simp [encode, decode]

theorem RoundTrip.cop0 (sub : BitVec 5) (rt rd : RegIdx) (low : BitVec 11) :
    RoundTrip.Statement (.cop0 sub rt rd low) := by intro _; simp [encode, decode]

theorem RoundTrip.cop1 (bits : BitVec 26) :
    RoundTrip.Statement (.cop1 bits) := by intro _; simp [encode, decode]

theorem RoundTrip.cop2 (bits : BitVec 26) :
    RoundTrip.Statement (.cop2 bits) := by intro _; simp [encode, decode]

theorem RoundTrip.cop3 (bits : BitVec 26) :
    RoundTrip.Statement (.cop3 bits) := by intro _; simp [encode, decode]

theorem RoundTrip.lb (rs rt : RegIdx) (imm : Half) :
    RoundTrip.Statement (.lb rs rt imm) := by intro _; simp [encode, decode]

theorem RoundTrip.lh (rs rt : RegIdx) (imm : Half) :
    RoundTrip.Statement (.lh rs rt imm) := by intro _; simp [encode, decode]

theorem RoundTrip.lwl (rs rt : RegIdx) (imm : Half) :
    RoundTrip.Statement (.lwl rs rt imm) := by intro _; simp [encode, decode]

theorem RoundTrip.lw (rs rt : RegIdx) (imm : Half) :
    RoundTrip.Statement (.lw rs rt imm) := by intro _; simp [encode, decode]

theorem RoundTrip.lbu (rs rt : RegIdx) (imm : Half) :
    RoundTrip.Statement (.lbu rs rt imm) := by intro _; simp [encode, decode]

theorem RoundTrip.lhu (rs rt : RegIdx) (imm : Half) :
    RoundTrip.Statement (.lhu rs rt imm) := by intro _; simp [encode, decode]

theorem RoundTrip.lwr (rs rt : RegIdx) (imm : Half) :
    RoundTrip.Statement (.lwr rs rt imm) := by intro _; simp [encode, decode]

theorem RoundTrip.sb (rs rt : RegIdx) (imm : Half) :
    RoundTrip.Statement (.sb rs rt imm) := by intro _; simp [encode, decode]

theorem RoundTrip.sh (rs rt : RegIdx) (imm : Half) :
    RoundTrip.Statement (.sh rs rt imm) := by intro _; simp [encode, decode]

theorem RoundTrip.swl (rs rt : RegIdx) (imm : Half) :
    RoundTrip.Statement (.swl rs rt imm) := by intro _; simp [encode, decode]

theorem RoundTrip.sw (rs rt : RegIdx) (imm : Half) :
    RoundTrip.Statement (.sw rs rt imm) := by intro _; simp [encode, decode]

theorem RoundTrip.swr (rs rt : RegIdx) (imm : Half) :
    RoundTrip.Statement (.swr rs rt imm) := by intro _; simp [encode, decode]

theorem RoundTrip.lwc0 (rs rt : RegIdx) (imm : Half) :
    RoundTrip.Statement (.lwc0 rs rt imm) := by intro _; simp [encode, decode]

theorem RoundTrip.lwc1 (rs rt : RegIdx) (imm : Half) :
    RoundTrip.Statement (.lwc1 rs rt imm) := by intro _; simp [encode, decode]

theorem RoundTrip.lwc2 (rs rt : RegIdx) (imm : Half) :
    RoundTrip.Statement (.lwc2 rs rt imm) := by intro _; simp [encode, decode]

theorem RoundTrip.lwc3 (rs rt : RegIdx) (imm : Half) :
    RoundTrip.Statement (.lwc3 rs rt imm) := by intro _; simp [encode, decode]

theorem RoundTrip.swc0 (rs rt : RegIdx) (imm : Half) :
    RoundTrip.Statement (.swc0 rs rt imm) := by intro _; simp [encode, decode]

theorem RoundTrip.swc1 (rs rt : RegIdx) (imm : Half) :
    RoundTrip.Statement (.swc1 rs rt imm) := by intro _; simp [encode, decode]

theorem RoundTrip.swc2 (rs rt : RegIdx) (imm : Half) :
    RoundTrip.Statement (.swc2 rs rt imm) := by intro _; simp [encode, decode]

theorem RoundTrip.swc3 (rs rt : RegIdx) (imm : Half) :
    RoundTrip.Statement (.swc3 rs rt imm) := by intro _; simp [encode, decode]

theorem RoundTrip.invalidSpecial (bits : BitVec 20) (funct : BitVec 6) :
    RoundTrip.Statement (.invalidSpecial bits funct) := by
  intro h
  simp only [encode, decode, decodeSpecial, fieldOp_encodeCode, fieldFunct_encodeCode, fieldCode_encodeCode]
  split <;> first | rfl | simp [Instr.wellFormed, assignedFunct] at h

theorem RoundTrip.invalid (op : BitVec 6) (bits : BitVec 26) :
    RoundTrip.Statement (.invalid op bits) := by
  intro h
  simp only [encode, decode, fieldOp_encodeJ, fieldTarget_encodeJ]
  split <;> first | rfl | simp [Instr.wellFormed, listedOpcode] at h

end Sys2Proof.Laws
end

