-- ==== Sys2Proof/Tests/Slice0.lean ====
section
/-! SUPPORT. Tests of the definitions, their expected results from spec/95_test_vectors.md and the examples of the
rules, and a witness for the hypotheses of every statement. -/

set_option Elab.async false

namespace Sys2Proof.Tests

open Sys2Proof Sys2Proof.Machine Sys2Proof.Statements

/-! ## Well-formedness: each check refuses an ill-formed term (30_encoding.md R68, R69) -/

theorem test_wellFormed_refuses_bltz_odd_rt : (Instr.bltz 1#5 3#5 3#16).wellFormed = false := by decide
theorem test_wellFormed_refuses_bltz_rt_16 : (Instr.bltz 1#5 16#5 3#16).wellFormed = false := by decide
theorem test_wellFormed_refuses_bgez_even_rt : (Instr.bgez 1#5 2#5 3#16).wellFormed = false := by decide
theorem test_wellFormed_refuses_bgez_rt_17 : (Instr.bgez 1#5 17#5 3#16).wellFormed = false := by decide
theorem test_wellFormed_refuses_assigned_funct : (Instr.invalidSpecial 0#20 0x20#6).wellFormed = false := by decide
theorem test_wellFormed_refuses_assigned_op : (Instr.invalid 0x23#6 0#26).wellFormed = false := by decide
theorem test_wellFormed_refuses_cop1_op : (Instr.invalid 0x11#6 0#26).wellFormed = false := by decide

/-! ## Decoding: the words of 95_test_vectors.md section 2 and of the rules' examples -/

theorem test_decode_arithmetic :
    decode 0x00221820#32 = .add 1#5 2#5 3#5 0#5 ∧
    decode 0x00221FE0#32 = .add 1#5 2#5 3#5 31#5 ∧
    decode 0x00221821#32 = .addu 1#5 2#5 3#5 0#5 ∧
    decode 0x2022FFFF#32 = .addi 1#5 2#5 0xFFFF#16 ∧
    decode 0x2422FFFF#32 = .addiu 1#5 2#5 0xFFFF#16 ∧
    decode 0x00221822#32 = .sub 1#5 2#5 3#5 0#5 ∧
    decode 0x00221823#32 = .subu 1#5 2#5 3#5 0#5 := by decide

theorem test_decode_comparison :
    decode 0x0022182A#32 = .slt 1#5 2#5 3#5 0#5 ∧
    decode 0x0022182B#32 = .sltu 1#5 2#5 3#5 0#5 ∧
    decode 0x2822FFFF#32 = .slti 1#5 2#5 0xFFFF#16 ∧
    decode 0x2C22FFFF#32 = .sltiu 1#5 2#5 0xFFFF#16 := by decide

theorem test_decode_logical :
    decode 0x00221824#32 = .and 1#5 2#5 3#5 0#5 ∧
    decode 0x00221825#32 = .or 1#5 2#5 3#5 0#5 ∧
    decode 0x00221826#32 = .xor 1#5 2#5 3#5 0#5 ∧
    decode 0x00221827#32 = .nor 1#5 2#5 3#5 0#5 ∧
    decode 0x3022FFFF#32 = .andi 1#5 2#5 0xFFFF#16 ∧
    decode 0x3422FFFF#32 = .ori 1#5 2#5 0xFFFF#16 ∧
    decode 0x3822FFFF#32 = .xori 1#5 2#5 0xFFFF#16 := by decide

theorem test_decode_shift :
    decode 0x00021900#32 = .sll 0#5 2#5 3#5 4#5 ∧
    decode 0x00021902#32 = .srl 0#5 2#5 3#5 4#5 ∧
    decode 0x00021903#32 = .sra 0#5 2#5 3#5 4#5 ∧
    decode 0x00221804#32 = .sllv 1#5 2#5 3#5 0#5 ∧
    decode 0x00221806#32 = .srlv 1#5 2#5 3#5 0#5 ∧
    decode 0x00221807#32 = .srav 1#5 2#5 3#5 0#5 ∧
    decode 0x3C080013#32 = .lui 0#5 8#5 0x0013#16 ∧
    decode 0x3FE80013#32 = .lui 31#5 8#5 0x0013#16 := by decide

theorem test_decode_load_store :
    decode 0x80220004#32 = .lb 1#5 2#5 4#16 ∧
    decode 0x90220004#32 = .lbu 1#5 2#5 4#16 ∧
    decode 0x84220004#32 = .lh 1#5 2#5 4#16 ∧
    decode 0x94220004#32 = .lhu 1#5 2#5 4#16 ∧
    decode 0x8C22FFFC#32 = .lw 1#5 2#5 0xFFFC#16 ∧
    decode 0xA0220004#32 = .sb 1#5 2#5 4#16 ∧
    decode 0xA4220004#32 = .sh 1#5 2#5 4#16 ∧
    decode 0xAC220004#32 = .sw 1#5 2#5 4#16 ∧
    decode 0x88220004#32 = .lwl 1#5 2#5 4#16 ∧
    decode 0x98220004#32 = .lwr 1#5 2#5 4#16 ∧
    decode 0xA8220004#32 = .swl 1#5 2#5 4#16 ∧
    decode 0xB8220004#32 = .swr 1#5 2#5 4#16 := by decide

theorem test_decode_multiply_divide :
    decode 0x00220018#32 = .mult 1#5 2#5 0#5 0#5 ∧
    decode 0x00220019#32 = .multu 1#5 2#5 0#5 0#5 ∧
    decode 0x0022001A#32 = .div 1#5 2#5 0#5 0#5 ∧
    decode 0x0022001B#32 = .divu 1#5 2#5 0#5 0#5 ∧
    decode 0x00001810#32 = .mfhi 0#5 0#5 3#5 0#5 ∧
    decode 0x00001812#32 = .mflo 0#5 0#5 3#5 0#5 ∧
    decode 0x00200011#32 = .mthi 1#5 0#5 0#5 0#5 ∧
    decode 0x00200013#32 = .mtlo 1#5 0#5 0#5 0#5 := by decide

theorem test_decode_jump :
    decode 0x08000800#32 = .j 0x800#26 ∧
    decode 0x0C000800#32 = .jal 0x800#26 ∧
    decode 0x03E00008#32 = .jr 31#5 0#5 0#5 0#5 ∧
    decode 0x0040F809#32 = .jalr 2#5 0#5 31#5 0#5 := by decide

theorem test_decode_branch :
    decode 0x10220003#32 = .beq 1#5 2#5 3#16 ∧
    decode 0x1422FFFE#32 = .bne 1#5 2#5 0xFFFE#16 ∧
    decode 0x18250003#32 = .blez 1#5 5#5 3#16 ∧
    decode 0x1C200003#32 = .bgtz 1#5 0#5 3#16 ∧
    decode 0x04200003#32 = .bltz 1#5 0#5 3#16 ∧
    decode 0x04320003#32 = .bltz 1#5 18#5 3#16 ∧
    decode 0x04210003#32 = .bgez 1#5 1#5 3#16 ∧
    decode 0x043F0003#32 = .bgez 1#5 31#5 3#16 ∧
    decode 0x04300003#32 = .bltzal 1#5 3#16 ∧
    decode 0x04310003#32 = .bgezal 1#5 3#16 := by decide

theorem test_decode_coprocessor :
    decode 0x40026000#32 = .cop0 0#5 2#5 12#5 0#11 ∧
    decode 0x40826000#32 = .cop0 4#5 2#5 12#5 0#11 ∧
    decode 0x42000010#32 = .cop0 16#5 0#5 0#5 0x010#11 ∧
    decode 0x44000000#32 = .cop1 0#26 ∧
    decode 0x48000000#32 = .cop2 0#26 ∧
    decode 0x4C000000#32 = .cop3 0#26 ∧
    decode 0xC0220004#32 = .lwc0 1#5 2#5 4#16 ∧
    decode 0xC4220004#32 = .lwc1 1#5 2#5 4#16 ∧
    decode 0xC8220004#32 = .lwc2 1#5 2#5 4#16 ∧
    decode 0xCC220004#32 = .lwc3 1#5 2#5 4#16 ∧
    decode 0xE0220004#32 = .swc0 1#5 2#5 4#16 ∧
    decode 0xE4220004#32 = .swc1 1#5 2#5 4#16 ∧
    decode 0xE8220004#32 = .swc2 1#5 2#5 4#16 ∧
    decode 0xEC220004#32 = .swc3 1#5 2#5 4#16 := by decide

theorem test_decode_exception_and_invalid :
    decode 0x0000000C#32 = .syscall 0#20 ∧
    decode 0x03FFFFCC#32 = .syscall 0xFFFFF#20 ∧
    decode 0x0000000D#32 = .brk 0#20 ∧
    decode 0x00000001#32 = .invalidSpecial 0#20 0x01#6 ∧
    decode 0x0000003F#32 = .invalidSpecial 0#20 0x3F#6 ∧
    decode 0xFC000000#32 = .invalid 0x3F#6 0#26 ∧
    decode 0x70000000#32 = .invalid 0x1C#6 0#26 ∧
    decode 0xFFFFFFFF#32 = .invalid 0x3F#6 0x3FFFFFF#26 := by decide

/-- One word of every family, bit by bit from the layouts of 30_encoding.md R61 to R63 and the codes of R66 to R68. -/
theorem test_decode_bit_by_bit :
    decode (0b000000#6 ++ 0b00001#5 ++ 0b00010#5 ++ 0b00011#5 ++ 0b00000#5 ++ 0b100000#6) = .add 1#5 2#5 3#5 0#5 ∧
    decode (0b001011#6 ++ 0b00001#5 ++ 0b00010#5 ++ 0b1111111111111111#16) = .sltiu 1#5 2#5 0xFFFF#16 ∧
    decode (0b000000#6 ++ 0b00001#5 ++ 0b00010#5 ++ 0b00011#5 ++ 0b00000#5 ++ 0b100111#6) = .nor 1#5 2#5 3#5 0#5 ∧
    decode (0b000000#6 ++ 0b00000#5 ++ 0b00010#5 ++ 0b00011#5 ++ 0b00100#5 ++ 0b000011#6) = .sra 0#5 2#5 3#5 4#5 ∧
    decode (0b101011#6 ++ 0b00001#5 ++ 0b00010#5 ++ 0b0000000000000100#16) = .sw 1#5 2#5 4#16 ∧
    decode (0b000000#6 ++ 0b00001#5 ++ 0b00010#5 ++ 0b00000#5 ++ 0b00000#5 ++ 0b011010#6) = .div 1#5 2#5 0#5 0#5 ∧
    decode (0b000011#6 ++ 0b00000000000000100000000000#26) = .jal 0x800#26 ∧
    decode (0b000001#6 ++ 0b00001#5 ++ 0b10000#5 ++ 0b0000000000000011#16) = .bltzal 1#5 3#16 ∧
    decode (0b010000#6 ++ 0b00100#5 ++ 0b00010#5 ++ 0b01100#5 ++ 0b00000000000#11) = .cop0 4#5 2#5 12#5 0#11 ∧
    decode (0b000000#6 ++ 0b11111111111111111111#20 ++ 0b001100#6) = .syscall 0xFFFFF#20 ∧
    decode (0b111111#6 ++ 0b00000000000000000000000000#26) = .invalid 0x3F#6 0#26 := by decide

/-- 0x3C080013 lies in memory as 13 00 08 3C (20_memory.md R42); two bytes are no instruction. -/
theorem test_decodeBytes :
    (decodeBytes [0x13#8, 0x00#8, 0x08#8, 0x3C#8, 0xAA#8]).toOption = some (.lui 0#5 8#5 0x13#16, [0xAA#8]) ∧
    (decodeBytes [0x13#8, 0x00#8]).toOption = none := by decide

theorem test_decodeTableWord : decodeTableWord 32 0x0C000800 = some (.jal 0x800#26) := by decide

/-- The first-match reading (30_encoding.md R71): BLTZAL before BLTZ, the catch-all rows last. -/
theorem test_firstMatch :
    (firstMatch 0x04300003#32).map (fun r => r.mnemonic) = some "BLTZAL" ∧
    (firstMatch 0x04320003#32).map (fun r => r.mnemonic) = some "BLTZ" ∧
    (firstMatch 0x0000003F#32).map (fun r => r.mnemonic) = some "INVALID_SPECIAL" ∧
    (firstMatch 0xFFFFFFFF#32).map (fun r => r.mnemonic) = some "INVALID" := by decide

/-! ## One step from a small state -/

/-- A start state of 95_test_vectors.md: Reset, words placed in memory, registers written, `SetProgramCounter(F)`. -/
def start (F : Word) (regs : List (RegIdx × Word)) (words : List (Word × Word)) : State :=
  setProgramCounter F (words.foldl (fun s p => s.setMem (s.mem.writeWord p.1 p.2))
    (regs.foldl (fun s p => hostSetRegister p.1 p.2 s) State.reset))

def withTrap (s : State) : State := { s with params := { s.params with trapOnOverflow := true } }
def withCop0 (s : State) : State := { s with params := { s.params with cop0MovesEnabled := true } }
/-- Another accessor bound in place of `FlatLE`. -/
def withBound (s : State) : State := { s with params := { s.params with mem := .bound 7 } }
def withBytewise (s : State) : State := { s with params := { s.params with misalignedPolicy := .bytewise } }

/-- The state after one step on the word `w`, if the step answers one. -/
def after (w : Word) (s : State) : Option State :=
  match step (s.withFetchWord 32 w.toNat) with
  | .next t => some t
  | .fault _ => none
  | .refused _ => none

/-! 3.1 Arithmetic (95_test_vectors.md section 3) -/

theorem test_add_wraps :
    (after 0x00221820#32 (start 0x1000#32 [(1#5, 0x7FFFFFFF#32), (2#5, 0x1#32)] [])).map
      (fun t => (t.getReg 3#5, t.fault)) = some (0x80000000#32, none) := by decide

theorem test_add_traps :
    (after 0x00221820#32 (withTrap (start 0x1000#32 [(1#5, 0x7FFFFFFF#32), (2#5, 0x1#32)] []))).map
      (fun t => (t.getReg 3#5, t.fault)) =
      some (0x0#32, some ⟨.arithmeticOverflow, .overflow, 0x1000#32, 0x00221820#32⟩) := by decide

theorem test_addu_same_register :
    (after 0x00842021#32 (start 0x1000#32 [(4#5, 0x80000001#32)] [])).map
      (fun t => t.getReg 4#5) = some 0x2#32 := by decide

theorem test_addi_sign_extends :
    (after 0x20228000#32 (start 0x1000#32 [(1#5, 0x10000#32)] [])).map
      (fun t => t.getReg 2#5) = some 0x8000#32 := by decide

theorem test_addiu_sign_extends :
    (after 0x2422FFFF#32 (start 0x1000#32 [(1#5, 0x10#32)] [])).map
      (fun t => t.getReg 2#5) = some 0xF#32 := by decide

theorem test_sub_order :
    (after 0x00221822#32 (start 0x1000#32 [(1#5, 0x5#32), (2#5, 0x7#32)] [])).map
      (fun t => t.getReg 3#5) = some 0xFFFFFFFE#32 := by decide

theorem test_sub_wraps :
    (after 0x00221822#32 (start 0x1000#32 [(1#5, 0x80000000#32), (2#5, 0x1#32)] [])).map
      (fun t => (t.getReg 3#5, t.fault)) = some (0x7FFFFFFF#32, none) := by decide

theorem test_subu :
    (after 0x00221823#32 (start 0x1000#32 [(2#5, 0x1#32)] [])).map
      (fun t => t.getReg 3#5) = some 0xFFFFFFFF#32 := by decide

/-! 3.2 Comparison (95_test_vectors.md section 3) -/

theorem test_slt_signed :
    (after 0x0022182A#32 (start 0x1000#32 [(1#5, 0x80000000#32), (2#5, 0x7FFFFFFF#32)] [])).map
      (fun t => t.getReg 3#5) = some 0x1#32 := by decide

theorem test_sltu_unsigned :
    (after 0x0022182B#32 (start 0x1000#32 [(1#5, 0xFFFFFFFF#32), (2#5, 0x1#32)] [])).map
      (fun t => t.getReg 3#5) = some 0x0#32 := by decide

theorem test_slti_sign_extends :
    (after 0x2822FFFF#32 (start 0x1000#32 [(1#5, 0xFFFFFFFF#32), (2#5, 0x9#32)] [])).map
      (fun t => t.getReg 2#5) = some 0x0#32 := by decide

theorem test_sltiu_sign_extends :
    (after 0x2C22FFFF#32 (start 0x1000#32 [(1#5, 0x80000000#32)] [])).map
      (fun t => t.getReg 2#5) = some 0x1#32 := by decide

/-! 3.3 Logical (95_test_vectors.md section 3) -/

theorem test_and :
    (after 0x00221824#32 (start 0x1000#32 [(1#5, 0xF0F0F0F0#32), (2#5, 0xFF00FF00#32)] [])).map
      (fun t => t.getReg 3#5) = some 0xF000F000#32 := by decide

theorem test_or :
    (after 0x00221825#32 (start 0x1000#32 [(1#5, 0xF0F0F0F0#32), (2#5, 0xFF00FF00#32)] [])).map
      (fun t => t.getReg 3#5) = some 0xFFF0FFF0#32 := by decide

theorem test_xor :
    (after 0x00221826#32 (start 0x1000#32 [(1#5, 0xF0F0F0F0#32), (2#5, 0xFF00FF00#32)] [])).map
      (fun t => t.getReg 3#5) = some 0xFF00FF0#32 := by decide

theorem test_nor :
    (after 0x00221827#32 (start 0x1000#32 [(1#5, 0xF0F0F0F0#32), (2#5, 0xFF00FF00#32)] [])).map
      (fun t => t.getReg 3#5) = some 0xF000F#32 := by decide

theorem test_andi_zero_extends :
    (after 0x3022FFFF#32 (start 0x1000#32 [(1#5, 0x12345678#32)] [])).map
      (fun t => t.getReg 2#5) = some 0x5678#32 := by decide

theorem test_ori_zero_extends :
    (after 0x3422FFFF#32 (start 0x1000#32 [(1#5, 0x12340000#32)] [])).map
      (fun t => t.getReg 2#5) = some 0x1234FFFF#32 := by decide

theorem test_ori_discards_in_x0 :
    (after 0x3400FFFF#32 (start 0x1000#32 [] [])).map
      (fun t => t.getReg 0#5) = some 0x0#32 := by decide

theorem test_xori_zero_extends :
    (after 0x3822FFFF#32 (start 0x1000#32 [(1#5, 0x12345678#32)] [])).map
      (fun t => t.getReg 2#5) = some 0x1234A987#32 := by decide

/-! 3.4 Shift (95_test_vectors.md section 3) -/

theorem test_sll :
    (after 0x00021900#32 (start 0x1000#32 [(2#5, 0x12345678#32)] [])).map
      (fun t => t.getReg 3#5) = some 0x23456780#32 := by decide

theorem test_srl :
    (after 0x00021902#32 (start 0x1000#32 [(2#5, 0x87654321#32)] [])).map
      (fun t => t.getReg 3#5) = some 0x8765432#32 := by decide

theorem test_sra_keeps_the_sign :
    (after 0x00021903#32 (start 0x1000#32 [(2#5, 0x87654321#32)] [])).map
      (fun t => t.getReg 3#5) = some 0xF8765432#32 := by decide

theorem test_sllv_count_is_five_bits :
    (after 0x00221804#32 (start 0x1000#32 [(2#5, 0x1#32), (1#5, 0x24#32)] [])).map
      (fun t => t.getReg 3#5) = some 0x10#32 := by decide

theorem test_srlv :
    (after 0x00221806#32 (start 0x1000#32 [(2#5, 0x80000000#32), (1#5, 0xFFFFFFE4#32)] [])).map
      (fun t => t.getReg 3#5) = some 0x8000000#32 := by decide

theorem test_srav :
    (after 0x00221807#32 (start 0x1000#32 [(2#5, 0x80000000#32), (1#5, 0x1F#32)] [])).map
      (fun t => t.getReg 3#5) = some 0xFFFFFFFF#32 := by decide

theorem test_lui_of_the_source :
    (after 0x3C080013#32 (start 0x1000#32 [(8#5, 0xFFFFFFFF#32)] [])).map
      (fun t => t.getReg 8#5) = some 0x130000#32 := by decide

/-! 3.5 Load and store (95_test_vectors.md section 3) -/

theorem test_lb_sign_extends :
    (after 0x80220007#32 (start 0x1000#32 [(1#5, 0x100#32)] [(0x104#32, 0x8899AAF6#32)])).map
      (fun t => t.getReg 2#5) = some 0xFFFFFF88#32 := by decide

theorem test_lbu_zero_extends :
    (after 0x90220004#32 (start 0x1000#32 [(1#5, 0x100#32)] [(0x104#32, 0x8899AAF6#32)])).map
      (fun t => t.getReg 2#5) = some 0xF6#32 := by decide

theorem test_lh_sign_extends :
    (after 0x84220006#32 (start 0x1000#32 [(1#5, 0x100#32)] [(0x104#32, 0x8899AAF6#32)])).map
      (fun t => t.getReg 2#5) = some 0xFFFF8899#32 := by decide

theorem test_lhu_zero_extends :
    (after 0x94220004#32 (start 0x1000#32 [(1#5, 0x100#32)] [(0x104#32, 0x8899AAF6#32)])).map
      (fun t => t.getReg 2#5) = some 0xAAF6#32 := by decide

theorem test_lw_negative_offset :
    (after 0x8C22FFFC#32 (start 0x1000#32 [(1#5, 0x108#32)] [(0x104#32, 0x8899AAF6#32)])).map
      (fun t => t.getReg 2#5) = some 0x8899AAF6#32 := by decide

theorem test_lw_address_wraps :
    (after 0x8C220008#32 (start 0x1000#32 [(1#5, 0xFFFFFFFC#32)] [(0x4#32, 0xCAFEF00D#32)])).map
      (fun t => t.getReg 2#5) = some 0xCAFEF00D#32 := by decide

theorem test_sb_low_byte_only :
    (after 0xA0220007#32 (start 0x1000#32 [(1#5, 0x100#32), (2#5, 0x12345678#32)] [(0x104#32, 0xFFFFFFFF#32)])).map
      (fun t => (t.mem.byteAt 0x104#32, t.mem.byteAt 0x107#32)) = some (0xFF#8, 0x78#8) := by decide

theorem test_sh_low_byte_first :
    (after 0xA4220006#32 (start 0x1000#32 [(1#5, 0x100#32), (2#5, 0x12345678#32)] [(0x104#32, 0xFFFFFFFF#32)])).map
      (fun t => (t.mem.byteAt 0x105#32, t.mem.byteAt 0x106#32, t.mem.byteAt 0x107#32)) =
      some (0xFF#8, 0x78#8, 0x56#8) := by decide

theorem test_sw_little_endian :
    (after 0xAC220004#32 (start 0x1000#32 [(1#5, 0x100#32), (2#5, 0x12345678#32)] [])).map
      (fun t => (t.mem.byteAt 0x104#32, t.mem.byteAt 0x105#32, t.mem.byteAt 0x106#32, t.mem.byteAt 0x107#32)) =
      some (0x78#8, 0x56#8, 0x34#8, 0x12#8) := by decide

theorem test_lw_bytewise :
    (after 0x8C220005#32 (withBytewise (start 0x1000#32 [(1#5, 0x100#32)] [(0x104#32, 0x8899AAF6#32), (0x108#32, 0x11#32)]))).map
      (fun t => t.getReg 2#5) =
      some 0x118899AA#32 := by decide

theorem test_lwl_faults :
    (after 0x88220004#32 (start 0x1000#32 [(1#5, 0x100#32), (2#5, 0x55#32)] [])).map
      (fun t => (t.getReg 2#5, t.fault)) =
      some (0x55#32, some ⟨.unimplementedInstruction, .unalignedLoadStore, 0x1000#32, 0x88220004#32⟩) := by decide

theorem test_lwr_faults :
    (after 0x98220004#32 (start 0x1000#32 [(1#5, 0x100#32), (2#5, 0x55#32)] [])).map
      (fun t => (t.getReg 2#5, t.fault)) =
      some (0x55#32, some ⟨.unimplementedInstruction, .unalignedLoadStore, 0x1000#32, 0x98220004#32⟩) := by decide

theorem test_swl_faults :
    (after 0xA8220004#32 (start 0x1000#32 [(1#5, 0x100#32), (2#5, 0x55#32)] [])).map
      (fun t => (t.getReg 2#5, t.fault)) =
      some (0x55#32, some ⟨.unimplementedInstruction, .unalignedLoadStore, 0x1000#32, 0xA8220004#32⟩) := by decide

theorem test_swr_faults :
    (after 0xB8220004#32 (start 0x1000#32 [(1#5, 0x100#32), (2#5, 0x55#32)] [])).map
      (fun t => (t.getReg 2#5, t.fault)) =
      some (0x55#32, some ⟨.unimplementedInstruction, .unalignedLoadStore, 0x1000#32, 0xB8220004#32⟩) := by decide

/-! 3.6 Multiply and divide (95_test_vectors.md section 3) -/

theorem test_mult_of_the_source :
    (after 0x00220018#32 (start 0x1000#32 [(1#5, 0xFFFFFFFF#32), (2#5, 0xFFFFFFFF#32)] [])).map
      (fun t => (t.hi, t.lo)) = some (0x0#32, 0x1#32) := by decide

theorem test_mult_mixed_signs :
    (after 0x00220018#32 (start 0x1000#32 [(1#5, 0x12345678#32), (2#5, 0x9ABCDEF0#32)] [])).map
      (fun t => (t.hi, t.lo)) = some (0xF8CC93D6#32, 0x242D2080#32) := by decide

theorem test_multu :
    (after 0x00220019#32 (start 0x1000#32 [(1#5, 0x12345678#32), (2#5, 0x9ABCDEF0#32)] [])).map
      (fun t => (t.hi, t.lo)) = some (0xB00EA4E#32, 0x242D2080#32) := by decide

theorem test_div_truncates :
    (after 0x0022001A#32 (start 0x1000#32 [(1#5, 0xFFFFFFF9#32), (2#5, 0x2#32)] [])).map
      (fun t => (t.hi, t.lo)) = some (0xFFFFFFFF#32, 0xFFFFFFFD#32) := by decide

theorem test_div_by_zero :
    (after 0x0022001A#32 (start 0x1000#32 [(1#5, 0xFFFFFFF9#32)] [])).map
      (fun t => (t.hi, t.lo)) = some (0xFFFFFFF9#32, 0x1#32) := by decide

theorem test_divu :
    (after 0x0022001B#32 (start 0x1000#32 [(1#5, 0xFFFFFFF9#32), (2#5, 0x2#32)] [])).map
      (fun t => (t.hi, t.lo)) = some (0x1#32, 0x7FFFFFFC#32) := by decide

theorem test_divu_by_zero :
    (after 0x0022001B#32 (start 0x1000#32 [(1#5, 0x7#32)] [])).map
      (fun t => (t.hi, t.lo)) = some (0x7#32, 0xFFFFFFFF#32) := by decide

theorem test_mfhi :
    (after 0x00001810#32 (hostSetLo 0x6#32 (hostSetHi 0xDEADBEEF#32 (start 0x1000#32 [] [])))).map
      (fun t => t.getReg 3#5) = some 0xDEADBEEF#32 := by decide

theorem test_mflo :
    (after 0x00001812#32 (hostSetLo 0x6#32 (hostSetHi 0xDEADBEEF#32 (start 0x1000#32 [] [])))).map
      (fun t => t.getReg 3#5) = some 0x6#32 := by decide

theorem test_mthi :
    (after 0x00200011#32 (hostSetLo 0x2#32 (hostSetHi 0x1#32 (start 0x1000#32 [(1#5, 0x55#32)] [])))).map
      (fun t => (t.hi, t.lo)) = some (0x55#32, 0x2#32) := by decide

theorem test_mtlo :
    (after 0x00200013#32 (hostSetLo 0x2#32 (hostSetHi 0x1#32 (start 0x1000#32 [(1#5, 0x55#32)] [])))).map
      (fun t => (t.hi, t.lo)) = some (0x1#32, 0x55#32) := by decide

/-! 3.7 Jump (95_test_vectors.md section 3) -/

theorem test_j_region_of_the_delay_slot :
    (after 0x08000040#32 (start 0x8FFFFFFC#32 [] [])).map
      (fun t => (t.pc, t.nextPC)) = some (0x90000000#32, 0x90000100#32) := by decide

theorem test_jal_of_the_source :
    (after 0x0C000800#32 (start 0xFFC#32 [] [])).map
      (fun t => (t.pc, t.nextPC, t.getReg 31#5)) = some (0x1000#32, 0x2000#32, 0x1004#32) := by decide

theorem test_jr_unchecked :
    (after 0x00200008#32 (start 0x1000#32 [(1#5, 0x2002#32)] [])).map
      (fun t => (t.pc, t.nextPC)) = some (0x1004#32, 0x2002#32) := by decide

theorem test_jalr_same_register :
    (after 0x00C03009#32 (start 0x1000#32 [(6#5, 0x3000#32)] [])).map
      (fun t => (t.nextPC, t.getReg 6#5)) = some (0x3000#32, 0x1008#32) := by decide

/-! 3.8 Branch (95_test_vectors.md section 3) -/

theorem test_beq_taken :
    (after 0x10220003#32 (start 0x1000#32 [(1#5, 0x5#32), (2#5, 0x5#32)] [])).map
      (fun t => t.nextPC) = some 0x1010#32 := by decide

theorem test_beq_not_taken :
    (after 0x10220003#32 (start 0x1000#32 [(1#5, 0x5#32), (2#5, 0x6#32)] [])).map
      (fun t => t.nextPC) = some 0x1008#32 := by decide

theorem test_bne_backward :
    (after 0x1422FFFE#32 (start 0x1000#32 [(1#5, 0x1#32), (2#5, 0x2#32)] [])).map
      (fun t => t.nextPC) = some 0xFFC#32 := by decide

theorem test_blez_negative :
    (after 0x18200003#32 (start 0x1000#32 [(1#5, 0x80000000#32)] [])).map
      (fun t => t.nextPC) = some 0x1010#32 := by decide

theorem test_blez_ignores_rt :
    (after 0x18250003#32 (start 0x1000#32 [(1#5, 0x1#32), (5#5, 0x1#32)] [])).map
      (fun t => t.nextPC) = some 0x1008#32 := by decide

theorem test_bgtz_zero :
    (after 0x1C200003#32 (start 0x1000#32 [] [])).map
      (fun t => t.nextPC) = some 0x1008#32 := by decide

theorem test_bgtz_positive :
    (after 0x1C200003#32 (start 0x1000#32 [(1#5, 0x1#32)] [])).map
      (fun t => t.nextPC) = some 0x1010#32 := by decide

theorem test_bltz :
    (after 0x04200003#32 (start 0x1000#32 [(1#5, 0xFFFFFFFF#32)] [])).map
      (fun t => t.nextPC) = some 0x1010#32 := by decide

theorem test_bltz_rt_18 :
    (after 0x04320003#32 (start 0x1000#32 [(1#5, 0xFFFFFFFF#32), (31#5, 0xAAAA#32)] [])).map
      (fun t => (t.nextPC, t.getReg 31#5)) = some (0x1010#32, 0xAAAA#32) := by decide

theorem test_bgez :
    (after 0x04210003#32 (start 0x1000#32 [] [])).map
      (fun t => t.nextPC) = some 0x1010#32 := by decide

theorem test_bgez_rt_31 :
    (after 0x043F0003#32 (start 0x1000#32 [(1#5, 0x1#32), (31#5, 0xAAAA#32)] [])).map
      (fun t => (t.nextPC, t.getReg 31#5)) = some (0x1010#32, 0xAAAA#32) := by decide

theorem test_bltzal_links :
    (after 0x04300003#32 (start 0x1000#32 [(1#5, 0xFFFFFFFF#32), (31#5, 0xAAAA#32)] [])).map
      (fun t => (t.nextPC, t.getReg 31#5)) = some (0x1010#32, 0x1008#32) := by decide

theorem test_bltzal_not_taken :
    (after 0x04300003#32 (start 0x1000#32 [(31#5, 0xAAAA#32)] [])).map
      (fun t => (t.nextPC, t.getReg 31#5)) = some (0x1008#32, 0xAAAA#32) := by decide

theorem test_bgezal_reads_old_x31 :
    (after 0x07F10003#32 (start 0x1000#32 [(31#5, 0x5#32)] [])).map
      (fun t => (t.nextPC, t.getReg 31#5)) = some (0x1010#32, 0x1008#32) := by decide

theorem test_bgezal_not_taken :
    (after 0x04310003#32 (start 0x1000#32 [(1#5, 0xFFFFFFFF#32), (31#5, 0xAAAA#32)] [])).map
      (fun t => (t.nextPC, t.getReg 31#5)) = some (0x1008#32, 0xAAAA#32) := by decide

/-! 3.9 Coprocessor, exception, invalid (95_test_vectors.md section 3) -/

theorem test_mfc0_faults_by_default :
    (after 0x40026000#32 (start 0x1000#32 [(2#5, 0x55#32)] [])).map
      (fun t => (t.getReg 2#5, t.fault)) =
      some (0x55#32, some ⟨.unimplementedInstruction, .coprocessor, 0x1000#32, 0x40026000#32⟩) := by decide

theorem test_mfc0_is_routed :
    (after 0x40026000#32 (withCop0 (start 0x1000#32 [] []))).map
      (fun t => (t.cop0, t.fault)) = some ([.getRegister 12#5], none) := by decide

theorem test_mtc0_is_routed :
    (after 0x40826000#32 (withCop0 (start 0x1000#32 [(2#5, 0x55#32)] []))).map
      (fun t => (t.cop0, t.fault)) = some ([.setRegister 12#5 0x55#32], none) := by decide

theorem test_cop1_faults :
    (after 0x44000000#32 (start 0x1000#32 [] [])).map
      (fun t => (t.pc, t.fault)) =
      some (0x1004#32, some ⟨.invalidOpcode, .none, 0x1000#32, 0x44000000#32⟩) := by decide

theorem test_cop2_faults :
    (after 0x48000000#32 (start 0x1000#32 [] [])).map
      (fun t => (t.pc, t.fault)) =
      some (0x1004#32, some ⟨.unimplementedInstruction, .coprocessor, 0x1000#32, 0x48000000#32⟩) := by decide

theorem test_cop3_faults :
    (after 0x4C000000#32 (start 0x1000#32 [] [])).map
      (fun t => (t.pc, t.fault)) =
      some (0x1004#32, some ⟨.invalidOpcode, .none, 0x1000#32, 0x4C000000#32⟩) := by decide

theorem test_lwc0_faults :
    (after 0xC0220004#32 (start 0x1000#32 [] [])).map
      (fun t => (t.pc, t.fault)) =
      some (0x1004#32, some ⟨.unimplementedInstruction, .coprocessor, 0x1000#32, 0xC0220004#32⟩) := by decide

theorem test_lwc1_faults :
    (after 0xC4220004#32 (start 0x1000#32 [] [])).map
      (fun t => (t.pc, t.fault)) =
      some (0x1004#32, some ⟨.unimplementedInstruction, .coprocessor, 0x1000#32, 0xC4220004#32⟩) := by decide

theorem test_lwc2_faults :
    (after 0xC8220004#32 (start 0x1000#32 [] [])).map
      (fun t => (t.pc, t.fault)) =
      some (0x1004#32, some ⟨.unimplementedInstruction, .coprocessor, 0x1000#32, 0xC8220004#32⟩) := by decide

theorem test_lwc3_faults :
    (after 0xCC220004#32 (start 0x1000#32 [] [])).map
      (fun t => (t.pc, t.fault)) =
      some (0x1004#32, some ⟨.unimplementedInstruction, .coprocessor, 0x1000#32, 0xCC220004#32⟩) := by decide

theorem test_swc0_faults :
    (after 0xE0220004#32 (start 0x1000#32 [] [])).map
      (fun t => (t.pc, t.fault)) =
      some (0x1004#32, some ⟨.unimplementedInstruction, .coprocessor, 0x1000#32, 0xE0220004#32⟩) := by decide

theorem test_swc1_faults :
    (after 0xE4220004#32 (start 0x1000#32 [] [])).map
      (fun t => (t.pc, t.fault)) =
      some (0x1004#32, some ⟨.unimplementedInstruction, .coprocessor, 0x1000#32, 0xE4220004#32⟩) := by decide

theorem test_swc2_faults :
    (after 0xE8220004#32 (start 0x1000#32 [] [])).map
      (fun t => (t.pc, t.fault)) =
      some (0x1004#32, some ⟨.unimplementedInstruction, .coprocessor, 0x1000#32, 0xE8220004#32⟩) := by decide

theorem test_swc3_faults :
    (after 0xEC220004#32 (start 0x1000#32 [] [])).map
      (fun t => (t.pc, t.fault)) =
      some (0x1004#32, some ⟨.unimplementedInstruction, .coprocessor, 0x1000#32, 0xEC220004#32⟩) := by decide

theorem test_syscall_keeps_its_bits :
    (after 0x03FFFFCC#32 (start 0x1000#32 [] [])).map
      (fun t => (t.pc, t.fault)) =
      some (0x1004#32, some ⟨.unimplementedInstruction, .syscall, 0x1000#32, 0x03FFFFCC#32⟩) := by decide

theorem test_break_faults :
    (after 0x0000000D#32 (start 0x1000#32 [] [])).map
      (fun t => (t.pc, t.fault)) =
      some (0x1004#32, some ⟨.unimplementedInstruction, .brk, 0x1000#32, 0x0000000D#32⟩) := by decide

theorem test_invalid_special :
    (after 0x00000001#32 (start 0x1000#32 [] [])).map
      (fun t => (t.pc, t.fault)) =
      some (0x1004#32, some ⟨.invalidOpcode, .none, 0x1000#32, 0x00000001#32⟩) := by decide

theorem test_invalid_faults :
    (after 0xFC000000#32 (start 0x1000#32 [] [])).map
      (fun t => (t.pc, t.fault)) =
      some (0x1004#32, some ⟨.invalidOpcode, .none, 0x1000#32, 0xFC000000#32⟩) := by decide

/-! ## Faults, reset and the host's moves -/

/-- A misaligned LW under the default policy: no step (20_memory.md R45, R57). -/
theorem test_lw_refused : after 0x8C220005#32 (start 0x1000#32 [(1#5, 0x100#32)] []) = none := by decide

/-- A word the host writes through a bound accessor is fetched (20_memory.md R56), and the step's one call, the fetch,
reaches the backing (R49). -/
theorem test_bound_accessor_fetch :
    (after 0x24210001#32 (withBound (start 0x1000#32 [] []))).map (fun t => (t.getReg 1#5, t.backing, t.mem)) =
      some (1#32, [.call (.read32 0x1000#32), .call (.write32 0x1000#32 0x24210001#32)], []) := by decide

/-- The host's own byte write reaches a bound accessor's backing and leaves the byte array alone. -/
theorem test_bound_accessor_host_byte :
    (hostWriteByte 5#32 7#8 (withBound State.reset)).backing = [.hostByte 5#32 7#8] ∧
      (hostWriteByte 5#32 7#8 (withBound State.reset)).mem = [] := by decide

/-- `FlatLE` keeps no events: a load and its fetch leave none (log 10). -/
theorem test_flatLE_keeps_no_events :
    (after 0x8C220004#32 (start 0x1000#32 [] [])).map (fun t => (t.backing, t.portCalls)) =
      some ([], [.mem (.read32 0x1000#32), .mem (.read32 0x4#32)]) := by decide

/-- Program P5 of 95_test_vectors.md: straight from Reset the word at 0 executes twice (70_reset_and_hazards.md R253). -/
theorem test_reset_runs_address_zero_twice :
    (match run 3 (State.configured Config.Params.default
        (Memory.writeWord (Memory.writeWord [] 0#32 0x24210001#32) 4#32 0x24420001#32)) with
      | .next t => some (t.getReg 1#5, t.getReg 2#5, t.pc, t.nextPC)
      | _ => none) = some (2#32, 1#32, 8#32, 0xC#32) := by decide

/-- Writing the value an unlisted address reads as removes the entry; addresses stay sorted. -/
theorem test_memory_canonical :
    Memory.writeByte (Memory.writeByte (Memory.writeByte [] 5#32 7#8) 2#32 9#8) 5#32 0#8 = [(2, 9#8)] := by decide

/-! ## Witnesses: the hypotheses of each statement are met, each clause of its own at a boundary value

A statement with no hypotheses has none: EncodeRestoresEveryWord, FirstMatchingRowIsTheHandler, WordsOfTheSpecDecode,
StepIgnoresEarlierPortCalls, ResetMeetsTheInvariant, RunsAddUp, ResetLeavesZeroes. -/

/-- Whether an outcome is a next state with a property. -/
def holdsOf (o : Outcome) (p : State → Bool) : Bool :=
  match o with
  | .next t => p t
  | .fault _ => false
  | .refused _ => false

theorem next_of_holdsOf {o : Outcome} {p : State → Bool} (h : holdsOf o p = true) :
    ∃ t, o = .next t ∧ p t = true := by
  cases o with
  | next t => exact ⟨t, rfl, h⟩
  | fault _ => cases h
  | refused _ => cases h

theorem next_of_answers {o : Outcome} (h : holdsOf o (fun _ => true) = true) : ∃ t, o = .next t :=
  (next_of_holdsOf h).imp fun _ h => h.1

/-- A state about to run one word at 0x1000. -/
def about (w : Word) (regs : List (RegIdx × Word)) : State := start 0x1000#32 regs [(0x1000#32, w)]

/-- A halted state. -/
def halt (s : State) : State :=
  { s with fault := some ⟨.invalidOpcode, .none, 0x1000#32, 0xFC000000#32⟩ }

theorem witness_DecodeReadsBackEveryEncoding :
    (Instr.bltz 31#5 18#5 0x8000#16).wellFormed = true ∧ (Instr.bgez 0#5 31#5 0#16).wellFormed = true ∧
      (Instr.invalidSpecial 0xFFFFF#20 0x3F#6).wellFormed = true ∧ (Instr.invalid 0x3C#6 0#26).wellFormed = true := by
  decide

theorem witness_ConditionalBranchSelector :
    op 0x04110003#32 = 0x01#6 ∧ (rt 0x04110003#32).toNat / 2 = 8 ∧ op 0x04100003#32 = 0x01#6 ∧
      (rt 0x04100003#32).toNat / 2 = 8 ∧ op 0x041F0003#32 = 0x01#6 ∧ (rt 0x041F0003#32).toNat / 2 ≠ 8 ∧
      op 0x04120003#32 = 0x01#6 ∧ (rt 0x04120003#32).toNat / 2 ≠ 8 := by decide

theorem witness_InvalidWordsAreTheUnassignedOnes :
    State.reset.fault = none ∧ unassignedOpcode (op 0xFFFFFFFF#32) ∧
      (op 0x0000003F#32 = 0x00#6 ∧ unassignedFunct (funct 0x0000003F#32)) ∧
      ¬ unassignedOpcode (op 0x00000020#32) ∧ ¬ unassignedFunct (funct 0x00000020#32) := by
  unfold unassignedOpcode unassignedFunct; decide

theorem witness_BytesAreLittleEndian :
    accepted State.reset 2 0xFFFFFFFE#32 ∧ accepted State.reset 4 0xFFFFFFFC#32 ∧
      accepted (withBytewise State.reset) 4 0xFFFFFFFF#32 ∧ onFlatLE State.reset ∧ State.reset.mem.wf = true :=
  ⟨⟨rfl, .inr rfl⟩, ⟨rfl, .inr rfl⟩, ⟨rfl, .inl rfl⟩, rfl, rfl⟩

theorem witness_WriteThenReadGivesTheValue :
    State.reset.mem.wf = true ∧ onFlatLE State.reset ∧ State.reset.write8 0xFFFFFFFF#32 1#8 = some [(0xFFFFFFFF, 1#8)] ∧
      ((0xFFFFFFFE#32).toNat % 2 = 0 ∧ State.reset.write16 0xFFFFFFFE#32 1#16 = some [(0xFFFFFFFE, 1#8)]) ∧
      ((0xFFFFFFFC#32).toNat % 4 = 0 ∧ State.reset.write32 0xFFFFFFFC#32 1#32 = some [(0xFFFFFFFC, 1#8)]) :=
  ⟨rfl, rfl, by decide, by decide, by decide⟩

theorem witness_MixedWidthViewOfMemory :
    onFlatLE State.reset ∧ State.reset.mem.wf = true ∧ (0xFFFFFFFC#32).toNat % 4 = 0 ∧
      (0xFFFFFFFE#32).toNat % 2 = 0 ∧ (0x0#32) ≠ 0xFFFFFFFE#32 ∧ (0x0#32) ≠ 0xFFFFFFFE#32 + 1#32 :=
  ⟨rfl, by decide⟩

theorem witness_NextFetchSeesTheStore :
    (start 0x1000#32 [(1#5, 0x1000#32)] []).mem.wf = true ∧
      onFlatLE (start 0x1000#32 [(1#5, 0x1000#32)] []) ∧
      (ea (withBound (start 0x1000#32 [(1#5, 0x1000#32)] [])) 1#5 4#16).toNat % 4 = 0 ∧
      ∃ t, exec (.sw 1#5 2#5 4#16) (start 0x1000#32 [(1#5, 0x1000#32)] []) = .next t ∧
        (t.pc == ea (start 0x1000#32 [(1#5, 0x1000#32)] []) 1#5 4#16) = true :=
  ⟨by decide, rfl, by decide,
    next_of_holdsOf (p := fun t => t.pc == ea (start 0x1000#32 [(1#5, 0x1000#32)] []) 1#5 4#16) (by decide)⟩

/-- On `FlatLE`, and on a bound accessor. -/
theorem witness_StepRunsTheDecodedInstruction :
    (about 0x24210001#32 []).fault = none ∧ accepted (about 0x24210001#32 []) 4 (about 0x24210001#32 []).pc ∧
      (Instr.addiu 1#5 1#5 1#16).wellFormed = true ∧
      (about 0x24210001#32 []).fetch = some (encode (.addiu 1#5 1#5 1#16)) ∧
      ((withBound State.reset).withFetchWord 32 0x24210001).fault = none ∧
      ((withBound State.reset).withFetchWord 32 0x24210001).fetch = some 0x24210001#32 :=
  ⟨rfl, ⟨rfl, .inr rfl⟩, rfl, by decide, rfl, by decide⟩

theorem witness_WithFetchWordRunsTheWord :
    (start 0xFFFFFFFC#32 [] []).fault = none ∧ (start 0xFFFFFFFC#32 [] []).mem.wf = true ∧
      accepted (start 0xFFFFFFFC#32 [] []) 4 (start 0xFFFFFFFC#32 [] []).pc ∧
      accepted (withBytewise (start 1#32 [] [])) 4 (withBytewise (start 1#32 [] [])).pc ∧
      (withBound (start 0xFFFFFFFC#32 [] [])).pc.toNat % 4 = 0 :=
  ⟨rfl, rfl, ⟨rfl, .inr rfl⟩, ⟨rfl, .inl rfl⟩, rfl⟩

theorem witness_HaltedCoreHasNoStep :
    (halt State.reset).fault = some ⟨.invalidOpcode, .none, 0x1000#32, 0xFC000000#32⟩ := rfl

theorem witness_StepAnswersUnlessTheAccessorRefuses :
    (State.reset.fault = none ∧ performs (setProgramCounter 1#32 State.reset) (.read32 1#32) = false) ∧
      (performs (about 0x8C220005#32 []) (.read32 0x1000#32) = true ∧
        refusedAccess (instrAtPC (about 0x8C220005#32 [])) (about 0x8C220005#32 []).fetched = some 5#32) ∧
      (performs (about 0x8C220004#32 []) (.read32 0x1000#32) = true ∧
        refusedAccess (instrAtPC (about 0x8C220004#32 [])) (about 0x8C220004#32 []).fetched = none) := by
  decide

theorem witness_EveryStepAdvancesThePair : ∃ t, step (about 0x08000800#32 []) = .next t :=
  next_of_answers (by decide)

theorem witness_DelaySlotExecutesBeforeTheTarget :
    (about 0x08000800#32 []).fault = none ∧ (about 0x08000800#32 []).fetch ≠ none ∧
      (about 0x08000800#32 []).nextPC = (about 0x08000800#32 []).pc + 4#32 ∧
      transferTarget (instrAtPC (about 0x08000800#32 [])) (about 0x08000800#32 []) = some 0x2000#32 ∧
      accepted (about 0x08000800#32 []) 4 (0x1000#32 + 4#32) ∧
      transferTarget (instrAtPC (about 0x14000003#32 [])) (about 0x14000003#32 []) = none ∧
      (∃ t, step (about 0x14000003#32 []) = .next t) ∧
      ∃ t, step (about 0x08000800#32 []) = .next t ∧
        (holdsOf (step t) fun u => u.fault == none && transferTarget (instrAtPC t) t == none && u.pc == 0x2000#32)
          = true :=
  ⟨rfl, by decide, rfl, by decide, ⟨rfl, .inr rfl⟩, by decide, next_of_answers (by decide),
    next_of_holdsOf (p := fun t => holdsOf (step t) fun u =>
      u.fault == none && transferTarget (instrAtPC t) t == none && u.pc == 0x2000#32) (by decide)⟩

/-- On `FlatLE`, and on a bound accessor. -/
theorem witness_PortCallsOfAStep :
    ((∃ t, step (about 0x8C220004#32 []) = .next t) ∧ onFlatLE (about 0x8C220004#32 [])) ∧
      (∃ t, step ((withBound State.reset).withFetchWord 32 0x24210001) = .next t) ∧
      ((withBound State.reset).withFetchWord 32 0x24210001).params.mem = .bound 7 :=
  ⟨⟨next_of_answers (by decide), rfl⟩, next_of_answers (by decide), rfl⟩

theorem about_inv (w : Word) (hw : (about w []).mem.wf = true) : (about w []).Inv :=
  ⟨hw, rfl, fun _ h => by cases h⟩

theorem witness_EveryStepKeepsTheInvariant :
    (about 0xFC000000#32 []).Inv ∧ ∃ t, step (about 0xFC000000#32 []) = .next t ∧ (t.fault != none) = true :=
  ⟨about_inv _ (by decide), next_of_holdsOf (p := fun t => t.fault != none) (by decide)⟩

theorem witness_ReachableStatesMeetTheInvariant :
    Reachable (hostWriteByte 0xFFFFFFFF#32 1#8 (State.configured Config.Params.default [])) :=
  .host _ _ (.writeByte 0xFFFFFFFF#32 1#8) (.configured _ _ rfl) rfl

/-- `JR $1` with `x[1] = 0xFFFFFFFC`. -/
theorem witness_PairStaysAligned :
    (about 0x00200008#32 [(1#5, 0xFFFFFFFC#32)]).pc.toNat % 4 = 0 ∧
      (about 0x00200008#32 [(1#5, 0xFFFFFFFC#32)]).nextPC.toNat % 4 = 0 ∧
      (∃ t, step (about 0x00200008#32 [(1#5, 0xFFFFFFFC#32)]) = .next t) ∧
      instrAtPC (about 0x00200008#32 [(1#5, 0xFFFFFFFC#32)]) = .jr 1#5 0#5 0#5 0#5 ∧
      ((about 0x00200008#32 [(1#5, 0xFFFFFFFC#32)]).getReg 1#5).toNat % 4 = 0 :=
  ⟨rfl, rfl, next_of_answers (by decide), by decide, by decide⟩

theorem witness_OnlyStoresChangeMemory :
    ((∃ t, step (about 0x24210001#32 []) = .next t) ∧ ¬ isStore (instrAtPC (about 0x24210001#32 []))) ∧
      (∃ t, step ((withBound State.reset).withFetchWord 32 0x24210001) = .next t) ∧
      ¬ onFlatLE ((withBound State.reset).withFetchWord 32 0x24210001) :=
  ⟨⟨next_of_answers (by decide), by
    have h : instrAtPC (about 0x24210001#32 []) = .addiu 1#5 1#5 1#16 := by decide
    rw [h]; exact id⟩, next_of_answers (by decide), fun h => by cases h⟩

theorem witness_OnlyTheDestinationChanges :
    (∃ t, exec (.addiu 1#5 1#5 1#16) State.reset = .next t) ∧
      destination (.addiu 1#5 1#5 1#16) ≠ some 31#5 := ⟨next_of_answers (by decide), by decide⟩

theorem witness_OnlyMultiplyDivideChangesHiLo :
    (∃ t, exec (.mthi 1#5 0#5 0#5 0#5) (start 0#32 [(1#5, 5#32)] []) = .next t ∧ (t.hi == 5#32) = true) ∧
      ∃ t, exec (.addiu 1#5 1#5 1#16) State.reset = .next t :=
  ⟨next_of_holdsOf (p := fun t => t.hi == 5#32) (by decide), next_of_answers (by decide)⟩

theorem witness_CoprocessorZeroIsSilentByDefault :
    (about 0x40026000#32 []).params.cop0MovesEnabled = false ∧
      ∃ t, step (about 0x40026000#32 []) = .next t := ⟨rfl, next_of_answers (by decide)⟩

theorem witness_FaultLatchFollowsTheTable :
    (∃ t, step (about 0x0000000C#32 []) = .next t ∧ (t.fault != none) = true) ∧
      ∃ t, step (about 0x24210001#32 []) = .next t ∧ (t.fault == none) = true :=
  ⟨next_of_holdsOf (p := fun t => t.fault != none) (by decide), next_of_holdsOf (p := fun t => t.fault == none) (by decide)⟩

theorem witness_FaultingStepChangesNothingElse :
    ∃ t, step (about 0x0000000C#32 []) = .next t ∧
      (t.fault == some ⟨.unimplementedInstruction, .syscall, 0x1000#32, 0x0000000C#32⟩) = true :=
  next_of_holdsOf (p := fun t =>
    t.fault == some ⟨.unimplementedInstruction, .syscall, 0x1000#32, 0x0000000C#32⟩) (by decide)

theorem witness_RunPerformsItsSteps :
    (∃ t, Host.Core.run core 1 (about 0x24210001#32 []) = .next t) ∧
      ∃ t, run 1 (about 0x24210001#32 []) = .next t ∧ (t.fault == none) = true :=
  ⟨next_of_answers (o := Host.Core.run core 1 (about 0x24210001#32 [])) (by decide),
    next_of_holdsOf (p := fun t => t.fault == none) (by decide)⟩

theorem witness_SetProgramCounterCancelsATransfer :
    ∃ t, step (setProgramCounter 0xFFFFFFFC#32 { State.reset with nextPC := 0x2000#32 }) = .next t :=
  next_of_answers (by decide)

/-- Memory with `ADDIU $1, $1, 1` at address 0. -/
def countAtZero : State := start 0x1000#32 [] [(0#32, 0x24210001#32)]

theorem witness_ResetExecutesAddressZeroTwice :
    transferTarget (instrAtPC (hostReset countAtZero)) (hostReset countAtZero) = none ∧ onFlatLE countAtZero ∧
      ¬ isStore (instrAtPC (hostReset countAtZero)) ∧
      ∃ t, step (hostReset countAtZero) = .next t ∧
        (holdsOf (step t) fun u => u.pc == 4#32 && transferTarget (instrAtPC t) t == none) = true := by
  have h : instrAtPC (hostReset countAtZero) = .addiu 1#5 1#5 1#16 := by decide
  refine ⟨?_, rfl, ?_, next_of_holdsOf (p := fun t => holdsOf (step t) fun u =>
    u.pc == 4#32 && transferTarget (instrAtPC t) t == none) (by decide)⟩
  · rw [h]; rfl
  · rw [h]; exact id

theorem witness_RegisterZeroIsHardWired :
    (destination (.lw 1#5 0#5 4#16) = some 0#5 ∧
        ∃ t, exec (.lw 1#5 0#5 4#16) State.reset = .next t) ∧
      destination (.jalr 2#5 0#5 0#5 0#5) = some 0#5 ∧
        ∃ t, exec (.jalr 2#5 0#5 0#5 0#5) State.reset = .next t :=
  ⟨⟨rfl, next_of_answers (by decide)⟩, rfl, next_of_answers (by decide)⟩

theorem witness_UnsignedAddAndSubtractWrap :
    (op 0x00221821#32 = 0x00#6 ∧ funct 0x00221821#32 = 0x21#6) ∧ op 0x2422FFFF#32 = 0x09#6 ∧
      op 0x00221823#32 = 0x00#6 ∧ funct 0x00221823#32 = 0x23#6 := by decide

/-- The exact sum 2^31, one above the largest that fits, and 2^31 - 1. -/
theorem witness_SignedAddAndSubtractWrapOrTrap :
    (op 0x00221820#32 = 0x00#6 ∧ funct 0x00221820#32 = 0x20#6) ∧ op 0x2022FFFF#32 = 0x08#6 ∧
      (op 0x00221822#32 = 0x00#6 ∧ funct 0x00221822#32 = 0x22#6) ∧
      (exactResult (.addi 1#5 2#5 1#16) (withTrap (start 0#32 [(1#5, 0x7FFFFFFF#32)] [])) = some (2 ^ 31) ∧
        (withTrap (start 0#32 [(1#5, 0x7FFFFFFF#32)] [])).params.trapOnOverflow = true ∧ ¬ fitsSigned (2 ^ 31)) ∧
      exactResult (.addi 1#5 2#5 1#16) (start 0#32 [(1#5, 0x7FFFFFFE#32)] []) = some (2 ^ 31 - 1) ∧
        fitsSigned (2 ^ 31 - 1) := by
  unfold fitsSigned; decide

theorem witness_ComparisonsGiveOneOrZero :
    (op 0x0022182A#32 = 0x00#6 ∧ funct 0x0022182A#32 = 0x2A#6) ∧
      (op 0x0022182B#32 = 0x00#6 ∧ funct 0x0022182B#32 = 0x2B#6) ∧ op 0x2822FFFF#32 = 0x0A#6 ∧
      op 0x2C22FFFF#32 = 0x0B#6 := by decide

theorem witness_LogicalInstructionsAreBitwise :
    (op 0x00221824#32 = 0x00#6 ∧ funct 0x00221824#32 = 0x24#6) ∧
      (op 0x00221825#32 = 0x00#6 ∧ funct 0x00221825#32 = 0x25#6) ∧
      (op 0x00221826#32 = 0x00#6 ∧ funct 0x00221826#32 = 0x26#6) ∧
      (op 0x00221827#32 = 0x00#6 ∧ funct 0x00221827#32 = 0x27#6) ∧ op 0x3022FFFF#32 = 0x0C#6 ∧
      op 0x3422FFFF#32 = 0x0D#6 ∧ op 0x3822FFFF#32 = 0x0E#6 := by decide

theorem witness_LogicalShiftsAndUpperImmediate :
    (op 0x00021900#32 = 0x00#6 ∧ funct 0x00021900#32 = 0x00#6) ∧
      (op 0x00021902#32 = 0x00#6 ∧ funct 0x00021902#32 = 0x02#6) ∧
      (op 0x00221804#32 = 0x00#6 ∧ funct 0x00221804#32 = 0x04#6) ∧
      (op 0x00221806#32 = 0x00#6 ∧ funct 0x00221806#32 = 0x06#6) ∧ op 0x3C080013#32 = 0x0F#6 := by decide

theorem witness_ArithmeticShiftsRoundDown :
    (op 0x00021903#32 = 0x00#6 ∧ funct 0x00021903#32 = 0x03#6) ∧ op 0x00221807#32 = 0x00#6 ∧
      funct 0x00221807#32 = 0x07#6 := by decide

/-- On `FlatLE`, and on a bound accessor, whose read follows a write of the same width (20_memory.md R56). -/
theorem witness_ByteLoads :
    op 0x80220004#32 = 0x20#6 ∧ op 0x90220004#32 = 0x24#6 ∧ onFlatLE State.reset ∧
      ((withBound State.reset).callMem (.write8 0xFFFFFFFF#32 0x80#8)).read8
        (ea ((withBound State.reset).callMem (.write8 0xFFFFFFFF#32 0x80#8)) 0#5 0xFFFF#16) = some 0x80#8 :=
  ⟨rfl, rfl, rfl, by decide⟩

/-- The last halfword and the last word of the address space, a misaligned word under `bytewise`, and a bound accessor. -/
theorem witness_HalfwordAndWordLoads :
    op 0x84220004#32 = 0x21#6 ∧ op 0x94220004#32 = 0x25#6 ∧ op 0x8C220004#32 = 0x23#6 ∧
      accepted State.reset 2 (ea State.reset 0#5 0xFFFE#16) ∧ accepted State.reset 4 (ea State.reset 0#5 0xFFFC#16) ∧
      accepted (withBytewise State.reset) 4 (ea (withBytewise State.reset) 0#5 0xFFFF#16) ∧
      ((withBound State.reset).callMem (.write16 2#32 0x8000#16)).read16
        (ea ((withBound State.reset).callMem (.write16 2#32 0x8000#16)) 0#5 2#16) = some 0x8000#16 ∧
      ((withBound State.reset).callMem (.write32 4#32 9#32)).read32
        (ea ((withBound State.reset).callMem (.write32 4#32 9#32)) 0#5 4#16) = some 9#32 :=
  ⟨rfl, rfl, rfl, ⟨rfl, .inr (by decide)⟩, ⟨rfl, .inr (by decide)⟩, ⟨rfl, .inl rfl⟩, by decide, by decide⟩

theorem witness_ByteStore :
    op 0xA0220004#32 = 0x28#6 ∧ onFlatLE State.reset ∧ State.reset.mem.wf = true ∧
      State.reset.write8 (ea State.reset 0#5 0xFFFF#16) ((State.reset.getReg 0#5).extractLsb' 0 8) = some [] :=
  ⟨rfl, rfl, rfl, by decide⟩

theorem witness_HalfwordAndWordStores :
    op 0xA4220004#32 = 0x29#6 ∧ op 0xAC220004#32 = 0x2B#6 ∧ State.reset.mem.wf = true ∧
      accepted State.reset 2 (ea State.reset 0#5 0xFFFE#16) ∧ accepted State.reset 4 (ea State.reset 0#5 0xFFFC#16) ∧
      State.reset.write16 (ea State.reset 0#5 0xFFFE#16) ((State.reset.getReg 0#5).extractLsb' 0 16) = some [] ∧
      State.reset.write32 (ea State.reset 0#5 0xFFFC#16) (State.reset.getReg 0#5) = some [] :=
  ⟨rfl, rfl, rfl, ⟨rfl, .inr (by decide)⟩, ⟨rfl, .inr (by decide)⟩, by decide, by decide⟩

/-- Both sides of the equivalence at an odd halfword address and a word address 2 above a multiple of 4; a byte is never
refused by `FlatLE`. -/
theorem witness_RefusedDataAccessesStop :
    performs State.reset (.read16 (ea State.reset 0#5 1#16)) = false ∧
      performs State.reset (.write32 (ea State.reset 0#5 2#16) 0#32) = false ∧
      performs State.reset (.read8 (ea State.reset 0#5 1#16)) = true := by decide

theorem witness_UnalignedFormsFault :
    op 0x88220004#32 = 0x22#6 ∧ op 0x98220004#32 = 0x26#6 ∧ op 0xA8220004#32 = 0x2A#6 ∧
      op 0xB8220004#32 = 0x2E#6 := by decide

theorem witness_ProductsAreExact :
    (op 0x00220018#32 = 0x00#6 ∧ funct 0x00220018#32 = 0x18#6) ∧ op 0x00220019#32 = 0x00#6 ∧
      funct 0x00220019#32 = 0x19#6 := by decide

/-- A zero divisor; -2^31 / -1; -2^31 / 1, which neither corner covers. -/
theorem witness_QuotientsAndRemainders :
    (op 0x0022001A#32 = 0x00#6 ∧ funct 0x0022001A#32 = 0x1A#6) ∧
      (op 0x0022001B#32 = 0x00#6 ∧ funct 0x0022001B#32 = 0x1B#6) ∧ State.reset.getReg 2#5 = 0#32 ∧
      ((start 0#32 [(1#5, 0x80000000#32), (2#5, 0xFFFFFFFF#32)] []).getReg 1#5 = 0x80000000#32 ∧
        (start 0#32 [(1#5, 0x80000000#32), (2#5, 0xFFFFFFFF#32)] []).getReg 2#5 = 0xFFFFFFFF#32) ∧
      (start 0#32 [(1#5, 0x80000000#32), (2#5, 1#32)] []).getReg 2#5 ≠ 0#32 ∧
      ¬ ((start 0#32 [(1#5, 0x80000000#32), (2#5, 1#32)] []).getReg 1#5 = 0x80000000#32 ∧
        (start 0#32 [(1#5, 0x80000000#32), (2#5, 1#32)] []).getReg 2#5 = 0xFFFFFFFF#32) := by decide

theorem witness_HiLoMoves :
    (op 0x00001810#32 = 0x00#6 ∧ funct 0x00001810#32 = 0x10#6) ∧
      (op 0x00001812#32 = 0x00#6 ∧ funct 0x00001812#32 = 0x12#6) ∧
      (op 0x00200011#32 = 0x00#6 ∧ funct 0x00200011#32 = 0x11#6) ∧ op 0x00200013#32 = 0x00#6 ∧
      funct 0x00200013#32 = 0x13#6 := by decide

theorem witness_JumpsSetTheNextPC :
    op 0x08000800#32 = 0x02#6 ∧ op 0x0C000800#32 = 0x03#6 ∧ op 0x03E00008#32 = 0x00#6 ∧
      funct 0x03E00008#32 = 0x08#6 := by decide

theorem witness_JumpAndLinkRegister : op 0x00C03009#32 = 0x00#6 ∧ funct 0x00C03009#32 = 0x09#6 := by decide

theorem witness_BranchesFollowTheirCondition :
    op 0x10220003#32 = 0x04#6 ∧ op 0x1422FFFE#32 = 0x05#6 ∧ op 0x18250003#32 = 0x06#6 ∧ op 0x1C200003#32 = 0x07#6 ∧
      (op 0x04320003#32 = 0x01#6 ∧ (rt 0x04320003#32).toNat % 2 = 0 ∧ rt 0x04320003#32 ≠ 16#5) ∧
      op 0x043F0003#32 = 0x01#6 ∧ (rt 0x043F0003#32).toNat % 2 = 1 ∧ rt 0x043F0003#32 ≠ 17#5 := by decide

theorem witness_BranchesAndLinkOnlyWhenTaken :
    (op 0x07F00003#32 = 0x01#6 ∧ rt 0x07F00003#32 = 16#5) ∧ (op 0x07F10003#32 = 0x01#6 ∧ rt 0x07F10003#32 = 17#5) ∧
      ((start 0#32 [(31#5, 0x80000000#32)] []).getReg 31#5).toInt < 0 ∧ 0 ≤ (State.reset.getReg 31#5).toInt := by
  decide

theorem witness_RoutedCoprocessorZeroMoves :
    op 0x40026000#32 = 0x10#6 ∧ (withCop0 State.reset).params.cop0MovesEnabled = true := by decide

theorem witness_OtherCoprocessorZeroWordsFault :
    (op 0x40026000#32 = 0x10#6 ∧ State.reset.params.cop0MovesEnabled = false) ∧
      op 0x42000010#32 = 0x10#6 ∧ rs 0x42000010#32 ≠ 0#5 ∧ rs 0x42000010#32 ≠ 4#5 := by decide

theorem witness_CoprocessorStubsFault :
    op 0x48000000#32 = 0x12#6 ∧ op 0xC0220004#32 = 0x30#6 ∧ op 0xC4220004#32 = 0x31#6 ∧ op 0xC8220004#32 = 0x32#6 ∧
      op 0xCC220004#32 = 0x33#6 ∧ op 0xE0220004#32 = 0x38#6 ∧ op 0xE4220004#32 = 0x39#6 ∧
      op 0xE8220004#32 = 0x3A#6 ∧ op 0xEC220004#32 = 0x3B#6 := by decide

theorem witness_SyscallAndBreakFault :
    (op 0x03FFFFCC#32 = 0x00#6 ∧ funct 0x03FFFFCC#32 = 0x0C#6) ∧ op 0x0000000D#32 = 0x00#6 ∧
      funct 0x0000000D#32 = 0x0D#6 := by decide

/-- The first and the last unassigned code of each table. -/
theorem witness_InvalidWordsFault :
    (op 0x00000001#32 = 0x00#6 ∧ unassignedFunct (funct 0x00000001#32) ∧ unassignedFunct (funct 0x0000003F#32)) ∧
      (unassignedOpcode (op 0x50000000#32) ∧ op 0x50000000#32 ≠ 0x11#6 ∧ op 0x50000000#32 ≠ 0x13#6) ∧
      unassignedOpcode (op 0xFFFFFFFF#32) ∧ op 0xFFFFFFFF#32 ≠ 0x11#6 ∧ op 0xFFFFFFFF#32 ≠ 0x13#6 := by
  unfold unassignedOpcode unassignedFunct; decide

theorem witness_CoprocessorOneAndThreeAreInvalid : op 0x44000000#32 = 0x11#6 ∧ op 0x4C000000#32 = 0x13#6 := by decide

end Sys2Proof.Tests
end

section
/-! PROOFS. General registers and the program-counter pair (10_state.md R21, R26). One lemma, `exec_transition`, says of every
instruction which registers it leaves alone, what the pair becomes and which port calls its handler makes; both statements
are read off it. -/

namespace Sys2Proof.Proofs

open Sys2Proof.Machine Sys2Proof.Statements

/-! ## The branch conditions and the branch offset, as the rules write them (48_branch.md R180, R189) -/

theorem ltZero_iff (v : Word) : ltZero v = true ↔ v.toInt < 0 := by
  simp [ltZero, BitVec.msb_eq_toInt]

theorem geZero_iff (v : Word) : geZero v = true ↔ 0 ≤ v.toInt := by
  simp [geZero, BitVec.msb_eq_toInt]

theorem leZero_iff (v : Word) : leZero v = true ↔ v.toInt ≤ 0 := by
  have hz : v = 0#32 ↔ v.toInt = 0 := by simpa using (BitVec.toInt_inj (x := v) (y := 0#32)).symm
  simp only [leZero, Bool.or_eq_true, beq_iff_eq, BitVec.msb_eq_toInt, decide_eq_true_eq, hz]
  omega

theorem gtZero_iff (v : Word) : gtZero v = true ↔ 0 < v.toInt := by
  have h : gtZero v = !leZero v := by simp [gtZero, leZero, bne]
  rw [h, Bool.not_eq_true', ← Bool.not_eq_true, leZero_iff, not_le]

theorem boff_eq_mul_four (k : Half) : boff k = k.signExtend 32 * 4#32 :=
  BitVec.shiftLeft_eq_mul_twoPow _ 2

/-! ## What one instruction does to the registers, the pair and the ports -/

/-- From `s` to `t`: the pair becomes the old `nextPC` and `follow`, the handler makes the port calls `calls`, and no register
but `dest` reads differently. -/
structure Transition (dest : Option RegIdx) (follow : Word) (calls : List PortCall) (s t : State) : Prop where
  pc : t.pc = s.nextPC
  nextPC : t.nextPC = follow
  portCalls : t.portCalls = s.portCalls ++ calls
  getReg : ∀ r, dest ≠ some r → t.getReg r = s.getReg r

/-- An instruction that writes no register leaves alone all but `dest`, whatever `dest` is. -/
theorem Transition.of_none {follow : Word} {calls : List PortCall} {s t : State}
    (h : Transition none follow calls s t) (dest : Option RegIdx) : Transition dest follow calls s t :=
  { h with getReg := fun r _ => h.getReg r nofun }

theorem setReg_getReg_of_dest_ne (s : State) {d r : RegIdx} (v : Word) (h : some d ≠ some r) :
    (s.setReg d v).getReg r = s.getReg r :=
  setReg_getReg_other s d r v fun e => h (congrArg some e.symm)

section Shapes

variable {s t : State}

theorem advance_transition (s : State) : Transition none (s.nextPC + 4#32) [] s s.advance :=
  ⟨rfl, rfl, by simp, by simp⟩

theorem writeReg_transition {d : RegIdx} {v : Word} (h : writeReg s d v = .next t) :
    Transition (some d) (s.nextPC + 4#32) [] s t := by
  cases h
  exact ⟨rfl, rfl, by simp, fun _ hr => setReg_getReg_of_dest_ne s.advance v hr⟩

theorem writeHiLo_transition {x y : Word} (h : writeHiLo s x y = .next t) :
    Transition none (s.nextPC + 4#32) [] s t := by
  cases h
  exact ⟨rfl, rfl, by simp, by simp⟩

theorem faultWith_transition {k : FaultKind} {c : FaultCause} {w : Word} (h : faultWith s k c w = .next t) :
    Transition none (s.nextPC + 4#32) [] s t := by
  cases h
  exact ⟨rfl, rfl, by simp, by simp⟩

theorem writeRegOrOverflow_transition {o : Bool} {d : RegIdx} {v w : Word} (h : writeRegOrOverflow s o d v w = .next t) :
    Transition (some d) (s.nextPC + 4#32) [] s t := by
  unfold writeRegOrOverflow at h
  split at h
  · exact (faultWith_transition h).of_none _
  · exact writeReg_transition h

theorem loadInto_transition {a : Word} {call : Config.MemCall} {d : RegIdx} {got : Option Word}
    (h : loadInto s a call d got = .next t) : Transition (some d) (s.nextPC + 4#32) [.mem call] s t := by
  cases got with
  | none => cases h
  | some v =>
    cases h
    exact ⟨rfl, rfl, rfl, fun _ hr => setReg_getReg_of_dest_ne (s.advance.callMem call) v hr⟩

theorem storeTo_transition {a : Word} {call : Config.MemCall} {got : Option Memory}
    (h : storeTo s a call got = .next t) : Transition none (s.nextPC + 4#32) [.mem call] s t := by
  cases got with
  | none => cases h
  | some m =>
    cases h
    exact ⟨rfl, rfl, rfl, by simp⟩

theorem jumpTo_transition {a : Word} (h : jumpTo s a = .next t) : Transition none a [] s t := by
  cases h
  exact ⟨rfl, rfl, by simp, by simp⟩

theorem jumpAndLink_transition {d : RegIdx} {a : Word} (h : jumpAndLink s d a = .next t) :
    Transition (some d) a [] s t := by
  cases h
  exact ⟨rfl, rfl, by simp, fun _ hr => setReg_getReg_of_dest_ne s.advance _ hr⟩

/-! ### Branches: `c` is the model's condition, `p` the rule's -/

section Branches

variable {c : Bool} {p : Prop} [Decidable p] {k : Half}

/-- A branch whose outcome when taken is `taken`. -/
theorem branch_transition {dest : Option RegIdx} {taken : Outcome} (hc : c = true ↔ p)
    (htaken : taken = .next t → Transition dest (branchTarget s k) [] s t)
    (h : (if c then taken else .next s.advance) = .next t) :
    Transition dest ((if p then some (branchTarget s k) else none).getD (s.nextPC + 4#32)) [] s t := by
  rw [if_congr hc rfl rfl] at h
  split_ifs at h ⊢ with hp
  · exact htaken h
  · cases h
    exact (advance_transition s).of_none dest

theorem branchIf_transition (hc : c = true ↔ p) (h : branchIf s c (boff k) = .next t) :
    Transition none ((if p then some (branchTarget s k) else none).getD (s.nextPC + 4#32)) [] s t := by
  rw [boff_eq_mul_four] at h
  exact branch_transition hc jumpTo_transition h

theorem branchLinkIf_transition (hc : c = true ↔ p) (h : branchLinkIf s c (boff k) = .next t) :
    Transition (some 31#5) ((if p then some (branchTarget s k) else none).getD (s.nextPC + 4#32)) [] s t := by
  rw [boff_eq_mul_four] at h
  exact branch_transition hc jumpAndLink_transition h

end Branches

/-! ### COP0: MFC0 routed, MTC0 routed, or the fault (49_coproc_exception_invalid.md R191, R219) -/

theorem execCop0_moveFrom (hon : s.params.cop0MovesEnabled = true) (rt rd : RegIdx) (low : BitVec 11) :
    execCop0 0#5 rt rd low s = moveFromCop0 s rt rd := by
  simp [execCop0, hon]

theorem execCop0_moveTo (hon : s.params.cop0MovesEnabled = true) (rt rd : RegIdx) (low : BitVec 11) :
    execCop0 4#5 rt rd low s = moveToCop0 s rt rd := by
  simp [execCop0, hon]

theorem execCop0_fault {sub : BitVec 5} (h : ¬ (s.params.cop0MovesEnabled = true ∧ (sub = 0#5 ∨ sub = 4#5)))
    (rt rd : RegIdx) (low : BitVec 11) :
    execCop0 sub rt rd low s = faultWith s .unimplementedInstruction .coprocessor (encode (.cop0 sub rt rd low)) := by
  by_cases hon : s.params.cop0MovesEnabled = true
  · obtain ⟨hfrom, hto⟩ := not_or.1 (not_and.1 h hon)
    simp [execCop0, hfrom, hto]
  · simp [execCop0, hon]

theorem dataCalls_cop0_fault {sub : BitVec 5} (h : ¬ (s.params.cop0MovesEnabled = true ∧ (sub = 0#5 ∨ sub = 4#5)))
    (rt rd : RegIdx) (low : BitVec 11) : dataCalls (.cop0 sub rt rd low) s = [] := by
  by_cases hon : s.params.cop0MovesEnabled = true
  · obtain ⟨hfrom, hto⟩ := not_or.1 (not_and.1 h hon)
    simp [dataCalls, hfrom, hto]
  · simp [dataCalls, hon]

theorem moveFromCop0_transition {rt rd : RegIdx} (h : moveFromCop0 s rt rd = .next t) :
    Transition (some rt) (s.nextPC + 4#32) [.cop0 (.getRegister rd)] s t := by
  cases h
  exact ⟨rfl, rfl, rfl, fun _ hr => setReg_getReg_of_dest_ne (s.advance.callCop0 _) _ hr⟩

theorem moveToCop0_transition {rt rd : RegIdx} (h : moveToCop0 s rt rd = .next t) :
    Transition none (s.nextPC + 4#32) [.cop0 (.setRegister rd (s.getReg rt))] s t := by
  cases h
  exact ⟨rfl, rfl, rfl, by simp⟩

theorem execCop0_transition {sub rt rd : RegIdx} {low : BitVec 11} (h : execCop0 sub rt rd low s = .next t) :
    Transition (destination (.cop0 sub rt rd low)) (s.nextPC + 4#32) (dataCalls (.cop0 sub rt rd low) s) s t := by
  by_cases hr : s.params.cop0MovesEnabled = true ∧ (sub = 0#5 ∨ sub = 4#5)
  · obtain ⟨hon, rfl | rfl⟩ := hr
    · rw [execCop0_moveFrom hon] at h
      simpa [destination, dataCalls, hon] using moveFromCop0_transition h
    · rw [execCop0_moveTo hon] at h
      simpa [destination, dataCalls, hon] using moveToCop0_transition h
  · rw [execCop0_fault hr] at h
    rw [dataCalls_cop0_fault hr]
    exact (faultWith_transition h).of_none _

end Shapes

/-- What every instruction does to the registers, the pair and the ports. -/
theorem exec_transition {i : Instr} {s t : State} (h : exec i s = .next t) :
    Transition (destination i) (followingPC i s) (dataCalls i s) s t := by
  cases i with
  | sll | srl | sra | sllv | srlv | srav => exact writeReg_transition h
  | mfhi | mflo => exact writeReg_transition h
  | addu | subu | and | or | xor | nor | slt | sltu => exact writeReg_transition h
  | addiu | slti | sltiu | andi | ori | xori | lui => exact writeReg_transition h
  | add | sub | addi => exact writeRegOrOverflow_transition h
  | mthi | mtlo | mult | multu | div | divu => exact writeHiLo_transition h
  | lb | lbu | lh | lhu | lw => exact loadInto_transition h
  | sb | sh | sw => exact storeTo_transition h
  | j | jr => exact jumpTo_transition h
  | jal | jalr => exact jumpAndLink_transition h
  | beq => exact branchIf_transition beq_iff_eq h
  | bne => exact branchIf_transition bne_iff_ne h
  | blez => exact branchIf_transition (leZero_iff _) h
  | bgtz => exact branchIf_transition (gtZero_iff _) h
  | bltz => exact branchIf_transition (ltZero_iff _) h
  | bgez => exact branchIf_transition (geZero_iff _) h
  | bltzal => exact branchLinkIf_transition (ltZero_iff _) h
  | bgezal => exact branchLinkIf_transition (geZero_iff _) h
  | cop0 => exact execCop0_transition h
  | syscall | brk | cop1 | cop2 | cop3 | lwl | lwr | swl | swr => exact faultWith_transition h
  | lwc0 | lwc1 | lwc2 | lwc3 | swc0 | swc1 | swc2 | swc3 => exact faultWith_transition h
  | invalidSpecial | invalid => exact faultWith_transition h

/-! ## The step -/

/-- The fetch leaves alone what a transfer's target and condition are read from. -/
@[simp] theorem followingPC_fetched (i : Instr) (s : State) : followingPC i s.fetched = followingPC i s := rfl

/-- A step that answers a next state has run the instruction at `pc`. -/
theorem exec_instrAtPC_of_step {s t : State} (h : step s = .next t) : exec (instrAtPC s) s.fetched = .next t := by
  obtain ⟨_, w, hw, hx⟩ := step_next h
  simpa [instrAtPC, wordAtPC, hw] using hx

/-- Settles O15, by the transition of the instruction at `pc` from the state of the fetch. -/
theorem everyStepAdvancesThePair : Obligations.EveryStepAdvancesThePair := by
  intro s t h
  have ht := exec_transition (exec_instrAtPC_of_step h)
  exact ⟨ht.pc, ht.nextPC.trans (followingPC_fetched _ s)⟩

/-! ## Register 0 -/

/-- An instruction whose destination is register 0 changes no register: register 0 reads zero before and after. -/
theorem Transition.sameRegs_of_dest_zero {follow : Word} {calls : List PortCall} {s t : State}
    (h : Transition (some 0#5) follow calls s t) : sameRegs s t := fun r => by
  by_cases hr : r = 0#5
  · subst hr
    rfl
  · exact h.getReg r fun e => hr (Option.some.inj e).symm

/-- Settles O34: the register file's own laws, and the transition of an instruction whose destination is register 0. -/
theorem registerZeroIsHardWired : Obligations.RegisterZeroIsHardWired := by
  refine ⟨getReg_zero, fun s i j v => ?_, setReg_zero, fun i s t hd h => ?_⟩
  · rw [setReg_getReg]
    congr 1
    exact propext (and_congr_right fun hji => by rw [hji])
  · have ht := exec_transition h
    rw [hd] at ht
    exact ⟨ht.sameRegs_of_dest_zero, ht.portCalls, ht.nextPC⟩

end Sys2Proof.Proofs
end

section
/-! PROOFS. Memory (20_memory.md R42, R56). For each width: what `FlatLE` answers where it performs the access, and the round
trip of every accessor, `FlatLE` by its byte array and a bound accessor by the event its backing received last. -/

namespace Sys2Proof.Proofs

open Sys2Proof.Machine Sys2Proof.Statements

/-! ## Where `FlatLE` performs an access (20_memory.md R45) -/

theorem acceptsHalf_of_accepted {s : State} {a : Word} (h : accepted s 2 a) : s.acceptsHalf a = true := by
  obtain ⟨_, hb | ha⟩ := h
  · simp [State.acceptsHalf, hb]
  · exact acceptsHalf_of_aligned ((alignedHalf_iff a).2 ha)

theorem acceptsWord_of_accepted {s : State} {a : Word} (h : accepted s 4 a) : s.acceptsWord a = true := by
  obtain ⟨_, hb | ha⟩ := h
  · simp [State.acceptsWord, hb]
  · exact acceptsWord_of_aligned ((alignedWord_iff a).2 ha)

theorem read16_of_accepted {s : State} {a : Word} (h : accepted s 2 a) : s.read16 a = some (s.mem.halfAt a) := by
  rw [read16_flatLE h.1, if_pos (acceptsHalf_of_accepted h)]

theorem read32_of_accepted {s : State} {a : Word} (h : accepted s 4 a) : s.read32 a = some (s.mem.wordAt a) := by
  rw [read32_flatLE h.1, if_pos (acceptsWord_of_accepted h)]

theorem write16_of_accepted {s : State} {a : Word} (h : accepted s 2 a) (v : Half) :
    s.write16 a v = some (s.mem.writeHalf a v) := by
  rw [write16_flatLE h.1, if_pos (acceptsHalf_of_accepted h)]

theorem write32_of_accepted {s : State} {a : Word} (h : accepted s 4 a) (v : Word) :
    s.write32 a v = some (s.mem.writeWord a v) := by
  rw [write32_flatLE h.1, if_pos (acceptsWord_of_accepted h)]

/-! ## Single bytes after a write -/

theorem byteAt_writeByte_same {m : Memory} (h : m.wf = true) (a : Word) (v : Byte) : (m.writeByte a v).byteAt a = v := by
  rw [byteAt_writeByte h, if_pos rfl]

/-- The bytes of a word lie at rising addresses, the least significant first, past the wrap at 2^32 too. -/
theorem bytes_of_writeWord {m : Memory} (h : m.wf = true) (a v : Word) :
    (m.writeWord a v).byteAt a = v.extractLsb' 0 8 ∧ (m.writeWord a v).byteAt (a + 1#32) = v.extractLsb' 8 8 ∧
      (m.writeWord a v).byteAt (a + 2#32) = v.extractLsb' 16 8 ∧
      (m.writeWord a v).byteAt (a + 3#32) = v.extractLsb' 24 8 := by
  simp [byteAt_writeWord h]

/-! ## The round trip of each width (20_memory.md R56) -/

section RoundTrip

variable {s : State} {a : Word} {m : Memory} (hw : s.mem.wf = true)
include hw

theorem read8_after_write8 {v : Byte} (h : s.write8 a v = some m) :
    ((s.callMem (.write8 a v)).setMem m).read8 a = some v := by
  cases hm : s.params.mem with
  | flatLE =>
    obtain rfl : s.mem.writeByte a v = m := Option.some.inj ((write8_flatLE hm a v).symm.trans h)
    rw [read8_flatLE (s := (s.callMem _).setMem _) hm, setMem_mem, byteAt_writeByte_same hw]
  | bound k =>
    rw [read8_bound (s := (s.callMem _).setMem _) hm, setMem_backing, callMem_backing, received_bound hm, boundRead8_write8]

theorem read16_after_write16 (ha : a.toNat % 2 = 0) {v : Half} (h : s.write16 a v = some m) :
    ((s.callMem (.write16 a v)).setMem m).read16 a = some v := by
  cases hm : s.params.mem with
  | flatLE =>
    obtain rfl : s.mem.writeHalf a v = m :=
      Option.some.inj ((write16_of_accepted ⟨hm, .inr ha⟩ v).symm.trans h)
    rw [read16_of_accepted (s := (s.callMem _).setMem _) ⟨hm, .inr ha⟩, setMem_mem, halfAt_writeHalf hw]
  | bound k =>
    rw [read16_bound (s := (s.callMem _).setMem _) hm, setMem_backing, callMem_backing, received_bound hm,
      boundRead16_write16 k _ v ((alignedHalf_iff a).2 ha)]

theorem read32_after_write32 (ha : a.toNat % 4 = 0) {v : Word} (h : s.write32 a v = some m) :
    ((s.callMem (.write32 a v)).setMem m).read32 a = some v := by
  cases hm : s.params.mem with
  | flatLE =>
    obtain rfl : s.mem.writeWord a v = m :=
      Option.some.inj ((write32_of_accepted ⟨hm, .inr ha⟩ v).symm.trans h)
    rw [read32_of_accepted (s := (s.callMem _).setMem _) ⟨hm, .inr ha⟩, setMem_mem, wordAt_writeWord hw]
  | bound k =>
    rw [read32_bound (s := (s.callMem _).setMem _) hm, setMem_backing, callMem_backing, received_bound hm,
      boundRead32_write32 k _ v ((alignedWord_iff a).2 ha)]

end RoundTrip

/-- Settles O8: the round trip of each width, and what `FlatLE` stores at an aligned address. -/
theorem writeThenReadGivesTheValue : Obligations.WriteThenReadGivesTheValue := by
  intro s a hw
  refine ⟨fun v m => read8_after_write8 hw, fun ha v m => read16_after_write16 hw ha,
    fun ha v m => read32_after_write32 hw ha, fun hf => ⟨fun v => ?_, fun ha v => ?_, fun ha v => ?_⟩⟩
  · exact ⟨_, write8_flatLE hf a v, byteAt_writeByte_same hw a v⟩
  · exact ⟨_, write16_of_accepted ⟨hf, .inr ha⟩ v, halfAt_writeHalf hw a v⟩
  · exact ⟨_, write32_of_accepted ⟨hf, .inr ha⟩ v, wordAt_writeWord hw a v⟩

/-- Settles O7: the reads `FlatLE` performs, the fetch being `read32` at `pc` by definition, and the example word's bytes
(20_memory.md R42). -/
theorem bytesAreLittleEndian : Obligations.BytesAreLittleEndian := by
  refine ⟨fun s a h => read16_of_accepted h, fun s a h => read32_of_accepted h, fun s a h => read8_flatLE h a,
    fun _ => rfl, fun s a hw h => ?_⟩
  obtain ⟨h0, h1, h2, h3⟩ := bytes_of_writeWord hw a 0x3C080013#32
  exact ⟨_, write32_of_accepted h _, h0, h1, h2, h3⟩

end Sys2Proof.Proofs
end

section
/-! PROOFS. Invalid words (30_encoding.md R69). Both sides of the statement are tied to the kind that R220's table gives the
decoded instruction, `faultKind`: the decoder reaches an instruction of kind `InvalidOpcode` exactly at the unassigned codes
(`faultKind_decode_iff`), and exactly those instructions latch a record of that kind (`latches_invalidOpcode_iff`). -/

namespace Sys2Proof.Proofs

open Sys2Proof.Machine Sys2Proof.Statements

/-- The kind of fault R220's table gives an instruction. -/
def faultKind (i : Instr) : Option FaultKind := (faultOf i).map Prod.fst

/-! ## The unassigned codes are those the decoder's tables leave out (30_encoding.md R66, R67) -/

theorem unassignedFunct_iff : ∀ f : BitVec 6, unassignedFunct f ↔ assignedFunct f = false := by
  unfold unassignedFunct
  decide

/-- COP1 and COP3 are unassigned but have rows of their own (R71). -/
theorem unassignedOpcode_iff : ∀ o : BitVec 6, unassignedOpcode o ↔ o = 0x11#6 ∨ o = 0x13#6 ∨ listedOpcode o = false := by
  unfold unassignedOpcode
  decide

/-! ## The kind of the instruction a word decodes to, code by code -/

theorem faultKind_decodeSpecial_iff (w : Word) :
    faultKind (decodeSpecial w) = some .invalidOpcode ↔ unassignedFunct (fieldFunct w) := by
  rw [unassignedFunct_iff]
  unfold decodeSpecial
  split
  case h_29 => simp_all [faultKind, faultOf, assignedFunct]
  all_goals
    rename_i h
    simp [h, faultKind, faultOf, assignedFunct]

theorem faultKind_decodeBranchLink (w : Word) : faultKind (decodeBranchLink w) = none := by
  unfold decodeBranchLink
  split <;> rfl

/-- The decoder reaches an instruction of kind `InvalidOpcode` exactly at the unassigned codes. -/
theorem faultKind_decode_iff (w : Word) :
    faultKind (decode w) = some .invalidOpcode ↔
      unassignedOpcode (fieldOp w) ∨ (fieldOp w = 0x00#6 ∧ unassignedFunct (fieldFunct w)) := by
  rw [unassignedOpcode_iff]
  unfold decode
  split
  case h_1 h => simp [h, listedOpcode, faultKind_decodeSpecial_iff]
  case h_2 h => simp [h, listedOpcode, faultKind_decodeBranchLink]
  case h_41 => simp_all [faultKind, faultOf, listedOpcode]
  all_goals
    rename_i h
    simp [h, faultKind, faultOf, listedOpcode]

/-! ## What a handler latches -/

section Shapes

variable {s t : State}

/-! ### The shapes that leave the latch alone -/

theorem writeReg_keepsLatch {d : RegIdx} {v : Word} (h : writeReg s d v = .next t) : t.fault = s.fault := by
  cases h
  rfl

theorem writeHiLo_keepsLatch {x y : Word} (h : writeHiLo s x y = .next t) : t.fault = s.fault := by
  cases h
  rfl

theorem loadInto_keepsLatch {a : Word} {call : Config.MemCall} {d : RegIdx} {got : Option Word}
    (h : loadInto s a call d got = .next t) : t.fault = s.fault := by
  cases got <;> cases h
  rfl

theorem storeTo_keepsLatch {a : Word} {call : Config.MemCall} {got : Option Memory}
    (h : storeTo s a call got = .next t) : t.fault = s.fault := by
  cases got <;> cases h
  rfl

theorem jumpTo_keepsLatch {a : Word} (h : jumpTo s a = .next t) : t.fault = s.fault := by
  cases h
  rfl

theorem jumpAndLink_keepsLatch {d : RegIdx} {a : Word} (h : jumpAndLink s d a = .next t) : t.fault = s.fault := by
  cases h
  rfl

theorem branchIf_keepsLatch {c : Bool} {off : Word} (h : branchIf s c off = .next t) : t.fault = s.fault := by
  cases c <;> cases h <;> rfl

theorem branchLinkIf_keepsLatch {c : Bool} {off : Word} (h : branchLinkIf s c off = .next t) : t.fault = s.fault := by
  cases c <;> cases h <;> rfl

/-! ### The shapes that may raise their instruction's fault -/

/-- From `s` to `t` the latch is as before, or `i` has raised the fault R220's table gives it. -/
def LatchedBy (i : Instr) (s t : State) : Prop :=
  t.fault = s.fault ∨ ∃ k c, faultOf i = some (k, c) ∧ t = s.raise k c (encode i)

variable {i : Instr}

theorem faultWith_latchedBy {k : FaultKind} {c : FaultCause} (hi : faultOf i = some (k, c))
    (h : faultWith s k c (encode i) = .next t) : LatchedBy i s t := by
  cases h
  exact .inr ⟨k, c, hi, rfl⟩

theorem writeRegOrOverflow_latchedBy {o : Bool} {d : RegIdx} {v : Word}
    (hi : faultOf i = some (.arithmeticOverflow, .overflow))
    (h : writeRegOrOverflow s o d v (encode i) = .next t) : LatchedBy i s t := by
  unfold writeRegOrOverflow at h
  split at h
  · exact faultWith_latchedBy hi h
  · exact .inl (writeReg_keepsLatch h)

theorem execCop0_latchedBy {sub rt rd : RegIdx} {low : BitVec 11} (h : execCop0 sub rt rd low s = .next t) :
    LatchedBy (.cop0 sub rt rd low) s t := by
  by_cases hr : s.params.cop0MovesEnabled = true ∧ (sub = 0#5 ∨ sub = 4#5)
  · obtain ⟨hon, rfl | rfl⟩ := hr
    · rw [execCop0_moveFrom hon] at h
      cases h
      exact .inl rfl
    · rw [execCop0_moveTo hon] at h
      cases h
      exact .inl rfl
  · rw [execCop0_fault hr] at h
    exact faultWith_latchedBy rfl h

end Shapes

/-- What every instruction does to the latch (60_exceptions.md R220, R222). -/
theorem exec_latchedBy {i : Instr} {s t : State} (h : exec i s = .next t) : LatchedBy i s t := by
  cases i with
  | sll | srl | sra | sllv | srlv | srav => exact .inl (writeReg_keepsLatch h)
  | mfhi | mflo => exact .inl (writeReg_keepsLatch h)
  | addu | subu | and | or | xor | nor | slt | sltu => exact .inl (writeReg_keepsLatch h)
  | addiu | slti | sltiu | andi | ori | xori | lui => exact .inl (writeReg_keepsLatch h)
  | add | sub | addi => exact writeRegOrOverflow_latchedBy rfl h
  | mthi | mtlo | mult | multu | div | divu => exact .inl (writeHiLo_keepsLatch h)
  | lb | lbu | lh | lhu | lw => exact .inl (loadInto_keepsLatch h)
  | sb | sh | sw => exact .inl (storeTo_keepsLatch h)
  | j | jr => exact .inl (jumpTo_keepsLatch h)
  | jal | jalr => exact .inl (jumpAndLink_keepsLatch h)
  | beq | bne | blez | bgtz | bltz | bgez => exact .inl (branchIf_keepsLatch h)
  | bltzal | bgezal => exact .inl (branchLinkIf_keepsLatch h)
  | cop0 => exact execCop0_latchedBy h
  | syscall | brk | cop1 | cop2 | cop3 | lwl | lwr | swl | swr => exact faultWith_latchedBy rfl h
  | lwc0 | lwc1 | lwc2 | lwc3 | swc0 | swc1 | swc2 | swc3 => exact faultWith_latchedBy rfl h
  | invalidSpecial | invalid => exact faultWith_latchedBy rfl h

/-- The four instructions of this kind fault whatever the parameters (49_coproc_exception_invalid.md R197, R198). -/
theorem exec_of_invalidOpcode {i : Instr} (h : faultKind i = some .invalidOpcode) (s : State) :
    exec i s = faultWith s .invalidOpcode .none (encode i) := by
  cases i with
  | cop1 | cop3 | invalidSpecial | invalid => rfl
  | _ => cases h

/-- From a core not halted, a handler latches `InvalidOpcode` exactly when R220's table gives its instruction that kind. -/
theorem latches_invalidOpcode_iff {i : Instr} {s : State} (hs : s.fault = none) :
    (∃ (t : State) (r : FaultRecord), exec i s = .next t ∧ t.fault = some r ∧ r.kind = .invalidOpcode) ↔
      faultKind i = some .invalidOpcode := by
  constructor
  · rintro ⟨t, r, hx, hr, hk⟩
    obtain hkept | ⟨k, c, hi, rfl⟩ := exec_latchedBy hx
    · rw [hkept, hs] at hr
      cases hr
    · cases hr
      rw [faultKind, hi, Option.map_some, ← hk]
  · intro hi
    exact ⟨_, _, exec_of_invalidOpcode hi s, rfl, rfl⟩

/-- Settles O5, through the kind of the decoded instruction. -/
theorem invalidWordsAreTheUnassignedOnes : Obligations.InvalidWordsAreTheUnassignedOnes := by
  intro w s hs
  exact (faultKind_decode_iff w).symm.trans (latches_invalidOpcode_iff hs).symm

end Sys2Proof.Proofs
end

section
/-! PROOFS. The dispatch and the delay slot (40_step_dispatch.md R85, R89). The selector of opcode 1 is read off its two bits.
For the delay slot, the pair's own law is `everyStepAdvancesThePair`; what is added here is that a transfer always completes
and changes neither the latch nor the memory the delay slot is fetched from (`exec_of_transfer`). -/

namespace Sys2Proof.Proofs

open Sys2Proof.Machine Sys2Proof.Statements

/-! ## The conditional-branch-and-link group (R85) -/

theorem linkSelector_iff : ∀ r : RegIdx, linkSelector r = true ↔ r.toNat / 2 = 8 := by decide

theorem geSelector_iff : ∀ r : RegIdx, geSelector r = true ↔ r.toNat % 2 = 1 := by decide

theorem decode_of_op_one {w : Word} (h : fieldOp w = 0x01#6) : decode w = decodeBranchLink w := by
  simp [decode, h]

/-- The high bit of the selector chooses the linking pair, the low bit the form within the pair. -/
theorem decodeBranchLink_eq_ite (w : Word) :
    decodeBranchLink w =
      if linkSelector (fieldRt w) then
        (if geSelector (fieldRt w) then .bgezal (fieldRs w) (fieldImm w) else .bltzal (fieldRs w) (fieldImm w))
      else
        (if geSelector (fieldRt w) then .bgez (fieldRs w) (fieldRt w) (fieldImm w)
        else .bltz (fieldRs w) (fieldRt w) (fieldImm w)) := by
  unfold decodeBranchLink
  cases linkSelector (fieldRt w) <;> cases geSelector (fieldRt w) <;> rfl

/-- Settles O4, by reading each bit of the selector as a condition on the value of `rt`. -/
theorem conditionalBranchSelector : Obligations.ConditionalBranchSelector := by
  intro w hop
  have hge := geSelector_iff (fieldRt w)
  rw [decode_of_op_one hop, decodeBranchLink_eq_ite]
  exact if_congr (linkSelector_iff _) (if_congr hge rfl rfl) (if_congr hge rfl rfl)

/-! ## A transfer completes, and leaves alone the latch and the memory (47_jump.md R170, 48_branch.md R180) -/

/-- The outcome is a next state with the latch, the byte array and the parameters as in `s`. -/
def KeepsLatchAndMemory (o : Outcome) (s : State) : Prop :=
  ∃ t, o = .next t ∧ t.fault = s.fault ∧ t.mem = s.mem ∧ t.params = s.params

section Shapes

variable (s : State)

theorem jumpTo_keepsLatchAndMemory (a : Word) : KeepsLatchAndMemory (jumpTo s a) s :=
  ⟨_, rfl, rfl, rfl, rfl⟩

theorem jumpAndLink_keepsLatchAndMemory (d : RegIdx) (a : Word) : KeepsLatchAndMemory (jumpAndLink s d a) s :=
  ⟨_, rfl, rfl, rfl, rfl⟩

theorem branchIf_keepsLatchAndMemory (c : Bool) (off : Word) : KeepsLatchAndMemory (branchIf s c off) s := by
  cases c with
  | false => exact ⟨_, rfl, rfl, rfl, rfl⟩
  | true => exact jumpTo_keepsLatchAndMemory s _

theorem branchLinkIf_keepsLatchAndMemory (c : Bool) (off : Word) : KeepsLatchAndMemory (branchLinkIf s c off) s := by
  cases c with
  | false => exact ⟨_, rfl, rfl, rfl, rfl⟩
  | true => exact jumpAndLink_keepsLatchAndMemory s _ _

end Shapes

theorem exec_of_transfer {i : Instr} {s : State} {T : Word} (h : transferTarget i s = some T) :
    KeepsLatchAndMemory (exec i s) s := by
  cases i with
  | j | jr => exact jumpTo_keepsLatchAndMemory s _
  | jal | jalr => exact jumpAndLink_keepsLatchAndMemory s _ _
  | beq | bne | blez | bgtz | bltz | bgez => exact branchIf_keepsLatchAndMemory s _ _
  | bltzal | bgezal => exact branchLinkIf_keepsLatchAndMemory s _ _
  | _ => cases h

/-! ## The delay slot (R89) -/

theorem followingPC_of_transfer {i : Instr} {s : State} {T : Word} (h : transferTarget i s = some T) :
    followingPC i s = T := by
  rw [followingPC, h, Option.getD_some]

theorem followingPC_of_no_transfer {i : Instr} {s : State} (h : transferTarget i s = none) :
    followingPC i s = s.nextPC + 4#32 := by
  rw [followingPC, h, Option.getD_none]

/-- A step whose fetch succeeds runs the instruction at `pc`. -/
theorem step_eq_exec_instrAtPC {s : State} (hf : s.fault = none) (hw : s.fetch ≠ none) :
    step s = exec (instrAtPC s) s.fetched := by
  obtain ⟨w, hw⟩ := Option.ne_none_iff_exists'.1 hw
  rw [step_of_fetch hf hw, instrAtPC, wordAtPC, hw, Option.getD_some]

/-- A step that makes a transfer completes, and leaves alone the latch and the memory. -/
theorem step_of_transfer {s : State} {T : Word} (hf : s.fault = none) (hw : s.fetch ≠ none)
    (hT : transferTarget (instrAtPC s) s = some T) : KeepsLatchAndMemory (step s) s := by
  rw [step_eq_exec_instrAtPC hf hw]
  exact exec_of_transfer (s := s.fetched) hT

/-- `FlatLE` reads the same word in a state with the same bytes and parameters. -/
theorem read32_of_accepted_same {s t : State} {a : Word} (hmem : t.mem = s.mem) (hparams : t.params = s.params)
    (h : accepted s 4 a) : t.read32 a = some (s.mem.wordAt a) := by
  have ht : accepted t 4 a := by rwa [accepted, onFlatLE, hparams]
  rw [read32_of_accepted ht, hmem]

/-- Settles O16: the pair's law at the transfer and again at the delay slot, with the transfer's step known to complete
unhalted and to keep the memory. -/
theorem delaySlotExecutesBeforeTheTarget : Obligations.DelaySlotExecutesBeforeTheTarget := by
  intro s hf hw hflow
  refine ⟨fun T hT => ?_, fun hnone t ht => ?_⟩
  · obtain ⟨t, ht, hfault, hmem, hparams⟩ := step_of_transfer hf hw hT
    obtain ⟨htpc, htnext⟩ := everyStepAdvancesThePair s t ht
    rw [hflow] at htpc
    rw [followingPC_of_transfer hT] at htnext
    refine ⟨t, ht, htpc, htnext, hfault.trans hf, fun hacc => ?_, fun w => step_of_fetch (hfault.trans hf),
      fun u hu => ?_⟩
    · rw [State.fetch, htpc]
      exact read32_of_accepted_same hmem hparams hacc
    · obtain ⟨hupc, hunext⟩ := everyStepAdvancesThePair t u hu
      rw [htnext] at hupc
      refine ⟨hupc, fun hslot => ?_, fun huf w hread => step_of_fetch huf ?_⟩
      · rw [hunext, followingPC_of_no_transfer hslot, htnext]
      · rw [State.fetch, hupc, hread]
  · obtain ⟨htpc, htnext⟩ := everyStepAdvancesThePair s t ht
    refine ⟨htpc.trans hflow, ?_⟩
    rw [htnext, followingPC_of_no_transfer hnone, hflow, BitVec.add_assoc]
    rfl

end Sys2Proof.Proofs
end

section
/-! PROOFS. ADDU, ADDIU and SUBU (41_arithmetic.md R102, R104, R106). The first two parts are for every instruction of the
register and the immediate form: its words decode to it because its own encoding round-trips, and a handler that writes one
register leaves all else as it was. What is particular to the three is that the exact result, taken modulo 2^32, is the
model's sum or difference. -/

namespace Sys2Proof.Proofs

open Sys2Proof.Machine Sys2Proof.Statements

/-! ## Decoding the words of an instruction, from the round trip of its encoding (30_encoding.md R61, R63) -/

theorem specialWord_of_roundTrip {f : BitVec 6} {c : RegIdx → RegIdx → RegIdx → BitVec 5 → Instr}
    (henc : ∀ a b d n, encode (c a b d n) = encodeR 0x00#6 a b d n f)
    (hround : ∀ a b d n, decode (encode (c a b d n)) = c a b d n) : specialWord f c := by
  intro w hop hfunct
  have hw : encode (c (rs w) (rt w) (rd w) (shamt w)) = w := by
    rw [henc, ← hop, ← hfunct]
    exact fieldsR w
  simpa only [hw] using hround (rs w) (rt w) (rd w) (shamt w)

theorem immediateWord_of_roundTrip {o : BitVec 6} {c : RegIdx → RegIdx → Half → Instr}
    (henc : ∀ a d k, encode (c a d k) = encodeI o a d k)
    (hround : ∀ a d k, decode (encode (c a d k)) = c a d k) : immediateWord o c := by
  intro w hop
  have hw : encode (c (rs w) (rt w) (imm w)) = w := by
    rw [henc, ← hop]
    exact fieldsI w
  simpa only [hw] using hround (rs w) (rt w) (imm w)

/-! ## A handler that writes one register (40_step_dispatch.md R82) -/

theorem writeReg_regResult (s : State) (d : RegIdx) (v : Word) : RegResult (writeReg s d v) s d v :=
  ⟨_, rfl, fun r => setReg_getReg s.advance d r v, ⟨rfl, rfl⟩, rfl, rfl, rfl, ⟨fun _ => rfl, rfl⟩, ⟨rfl, rfl⟩⟩

/-- The value may be given in the rule's own terms. -/
theorem writeReg_regResult_of_eq {v v' : Word} (h : v = v') (s : State) (d : RegIdx) :
    RegResult (writeReg s d v) s d v' :=
  h ▸ writeReg_regResult s d v

/-! ## Results modulo 2^32 (41_arithmetic.md R100) -/

theorem ofInt_toNat (x : Word) : BitVec.ofInt 32 x.toNat = x := by
  rw [BitVec.ofInt_natCast, BitVec.ofNat_toNat, BitVec.setWidth_eq]

theorem add_simm_eq_ofInt (x : Word) (k : Half) : x + simm k = BitVec.ofInt 32 (x.toNat + k.toInt) := by
  rw [BitVec.ofInt_add, ofInt_toNat]
  rfl

theorem sub_eq_ofInt (x y : Word) : x - y = BitVec.ofInt 32 (x.toNat - y.toNat) := by
  rw [Int.sub_eq_add_neg, BitVec.ofInt_add, BitVec.ofInt_neg, ofInt_toNat, ofInt_toNat, BitVec.sub_eq_add_neg]

/-- Settles O35: the round trips of the three encodings, and the register each handler writes. -/
theorem unsignedAddAndSubtractWrap : Obligations.UnsignedAddAndSubtractWrap := by
  refine ⟨?addu, ?addiu, ?subu, fun a b d n s => ?sum, fun a d k s => ?immediateSum, fun a b d n s => ?difference⟩
  case addu => exact specialWord_of_roundTrip (fun _ _ _ _ => rfl) fun a b d n => Laws.RoundTrip.addu a b d n rfl
  case addiu => exact immediateWord_of_roundTrip (fun _ _ _ => rfl) fun a d k => Laws.RoundTrip.addiu a d k rfl
  case subu => exact specialWord_of_roundTrip (fun _ _ _ _ => rfl) fun a b d n => Laws.RoundTrip.subu a b d n rfl
  case sum => exact writeReg_regResult_of_eq (BitVec.add_def _ _) s d
  case immediateSum => exact writeReg_regResult_of_eq (add_simm_eq_ofInt _ k) s d
  case difference => exact writeReg_regResult_of_eq (sub_eq_ofInt _ _) s d

end Sys2Proof.Proofs
end

section
/-! PROOFS. SLT, SLTU, SLTI and SLTIU (42_comparison.md R111 to R114). Their words decode, and their handlers write one
register, as in any instruction of the two forms. What is particular to the four is the value written: 1 exactly when the
rule's comparison of exact integers holds, where SLTI compares with the signed value of its 16-bit immediate, which sign
extension keeps. -/

namespace Sys2Proof.Proofs

open Sys2Proof.Machine Sys2Proof.Statements

/-! ## The value a comparison writes (42_comparison.md R110) -/

theorem boolWord_ltSigned (x y : Word) : boolWord (ltSigned x y) = if x.toInt < y.toInt then 1#32 else 0#32 := by
  simp only [boolWord, ltSigned, decide_eq_true_eq]

theorem boolWord_ltUnsigned (x y : Word) : boolWord (ltUnsigned x y) = if x.toNat < y.toNat then 1#32 else 0#32 := by
  simp only [boolWord, ltUnsigned, decide_eq_true_eq]

theorem simm_toInt (k : Half) : (simm k).toInt = k.toInt :=
  BitVec.toInt_signExtend_of_le (by decide)

theorem boolWord_ltSigned_simm (x : Word) (k : Half) :
    boolWord (ltSigned x (simm k)) = if x.toInt < k.toInt then 1#32 else 0#32 := by
  rw [boolWord_ltSigned, simm_toInt]

/-- Settles O37: the round trips of the four encodings, and the register each handler writes. -/
theorem comparisonsGiveOneOrZero : Obligations.ComparisonsGiveOneOrZero := by
  refine ⟨?slt, ?sltu, ?slti, ?sltiu, fun a b d n s => ?signed, fun a b d n s => ?unsigned,
    fun a d k s => ?immediateSigned, fun a d k s => ?immediateUnsigned⟩
  case slt => exact specialWord_of_roundTrip (fun _ _ _ _ => rfl) fun a b d n => Laws.RoundTrip.slt a b d n rfl
  case sltu => exact specialWord_of_roundTrip (fun _ _ _ _ => rfl) fun a b d n => Laws.RoundTrip.sltu a b d n rfl
  case slti => exact immediateWord_of_roundTrip (fun _ _ _ => rfl) fun a d k => Laws.RoundTrip.slti a d k rfl
  case sltiu => exact immediateWord_of_roundTrip (fun _ _ _ => rfl) fun a d k => Laws.RoundTrip.sltiu a d k rfl
  case signed => exact writeReg_regResult_of_eq (boolWord_ltSigned _ _) s d
  case unsigned => exact writeReg_regResult_of_eq (boolWord_ltUnsigned _ _) s d
  case immediateSigned => exact writeReg_regResult_of_eq (boolWord_ltSigned_simm _ k) s d
  case immediateUnsigned => exact writeReg_regResult_of_eq (boolWord_ltUnsigned _ (simm k)) s d

end Sys2Proof.Proofs
end

section
/-! PROOFS. AND, OR, XOR, NOR, ANDI, ORI and XORI (43_logical.md R121 to R127). Their words decode, and their handlers
write one register, as in any instruction of the two forms. The register forms write the rule's value as it stands; what is
particular to the immediate forms is that their immediate is 16 zero bits above the field, where the arithmetic ones
sign-extend. -/

namespace Sys2Proof.Proofs

open Sys2Proof.Machine Sys2Proof.Statements

theorem zimm_eq_zeros_append (k : Half) : zimm k = 0#16 ++ k :=
  BitVec.setWidth_eq_append (by decide)

/-- An operation on the zero-extended immediate, in the rule's terms. -/
theorem writeReg_zimm_regResult (f : Word → Word) (s : State) (d : RegIdx) (k : Half) :
    RegResult (writeReg s d (f (zimm k))) s d (f (0#16 ++ k)) :=
  writeReg_regResult_of_eq (congrArg f (zimm_eq_zeros_append k)) s d

/-- Settles O38: the round trips of the seven encodings, and the register each handler writes. -/
theorem logicalInstructionsAreBitwise : Obligations.LogicalInstructionsAreBitwise := by
  refine ⟨?and, ?or, ?xor, ?nor, ?andi, ?ori, ?xori, fun a b d n s => ?conjunction, fun a b d n s => ?disjunction,
    fun a b d n s => ?exclusive, fun a b d n s => ?complement, fun a d k s => ?immediateConjunction,
    fun a d k s => ?immediateDisjunction, fun a d k s => ?immediateExclusive⟩
  case and => exact specialWord_of_roundTrip (fun _ _ _ _ => rfl) fun a b d n => Laws.RoundTrip.and a b d n rfl
  case or => exact specialWord_of_roundTrip (fun _ _ _ _ => rfl) fun a b d n => Laws.RoundTrip.or a b d n rfl
  case xor => exact specialWord_of_roundTrip (fun _ _ _ _ => rfl) fun a b d n => Laws.RoundTrip.xor a b d n rfl
  case nor => exact specialWord_of_roundTrip (fun _ _ _ _ => rfl) fun a b d n => Laws.RoundTrip.nor a b d n rfl
  case andi => exact immediateWord_of_roundTrip (fun _ _ _ => rfl) fun a d k => Laws.RoundTrip.andi a d k rfl
  case ori => exact immediateWord_of_roundTrip (fun _ _ _ => rfl) fun a d k => Laws.RoundTrip.ori a d k rfl
  case xori => exact immediateWord_of_roundTrip (fun _ _ _ => rfl) fun a d k => Laws.RoundTrip.xori a d k rfl
  case conjunction => exact writeReg_regResult s d (s.getReg a &&& s.getReg b)
  case disjunction => exact writeReg_regResult s d (s.getReg a ||| s.getReg b)
  case exclusive => exact writeReg_regResult s d (s.getReg a ^^^ s.getReg b)
  case complement => exact writeReg_regResult s d (~~~(s.getReg a ||| s.getReg b))
  case immediateConjunction => exact writeReg_zimm_regResult (s.getReg a &&& ·) s d k
  case immediateDisjunction => exact writeReg_zimm_regResult (s.getReg a ||| ·) s d k
  case immediateExclusive => exact writeReg_zimm_regResult (s.getReg a ^^^ ·) s d k

end Sys2Proof.Proofs
end

section
/-! PROOFS. SLL, SRL, SLLV, SRLV and LUI, SRA and SRAV (44_shift.md R131 to R137). Their words decode, and their handlers
write one register, as in any instruction of the two forms. What is particular to the family is that each shift of the model
is the rule's exact arithmetic (times or divided by a power of two, the signed quotient rounded down), and that the variable
forms count with the low five bits of `x[rs]`. -/

namespace Sys2Proof.Proofs

open Sys2Proof.Machine Sys2Proof.Statements

/-! ## The shifts as exact arithmetic, and the count of a variable shift (44_shift.md R130) -/

theorem shiftCount_toNat (v : Word) : (shiftCount v).toNat = v.toNat % 32 := by
  rw [shiftCount, BitVec.extractLsb'_toNat, Nat.shiftRight_zero]

theorem shiftLeft_eq_ofNat (x : Word) (n : Nat) : x <<< n = BitVec.ofNat 32 (x.toNat * 2 ^ n) := by
  rw [← Nat.shiftLeft_eq]
  rfl

theorem ushiftRight_eq_ofNat (x : Word) (n : Nat) : x >>> n = BitVec.ofNat 32 (x.toNat / 2 ^ n) := by
  rw [← Nat.shiftRight_eq_div_pow, ← BitVec.toNat_ushiftRight, BitVec.ofNat_toNat, BitVec.setWidth_eq]

/-- The divisor is positive, so the quotient that the arithmetic shift leaves is the floor. -/
theorem sshiftRight_eq_ofInt_fdiv (x : Word) (n : Nat) :
    x.sshiftRight n = BitVec.ofInt 32 (Int.fdiv x.toInt (2 ^ n)) := by
  have hfloor : x.toInt >>> n = Int.fdiv x.toInt (2 ^ n) := by
    rw [Int.fdiv_eq_ediv_of_nonneg _ (by positivity), Int.shiftRight_eq_div_pow, Nat.cast_pow, Nat.cast_ofNat]
  exact congrArg (BitVec.ofInt 32) hfloor

/-- Settles O39: the round trips of the five encodings, and the register each handler writes. -/
theorem logicalShiftsAndUpperImmediate : Obligations.LogicalShiftsAndUpperImmediate := by
  refine ⟨?sll, ?srl, ?sllv, ?srlv, ?lui, fun a b d n s => ?left, fun a b d n s => ?right,
    fun a b d n s => ?leftVariable, fun a b d n s => ?rightVariable, fun a d k s => ?upperImmediate⟩
  case sll => exact specialWord_of_roundTrip (fun _ _ _ _ => rfl) fun a b d n => Laws.RoundTrip.sll a b d n rfl
  case srl => exact specialWord_of_roundTrip (fun _ _ _ _ => rfl) fun a b d n => Laws.RoundTrip.srl a b d n rfl
  case sllv => exact specialWord_of_roundTrip (fun _ _ _ _ => rfl) fun a b d n => Laws.RoundTrip.sllv a b d n rfl
  case srlv => exact specialWord_of_roundTrip (fun _ _ _ _ => rfl) fun a b d n => Laws.RoundTrip.srlv a b d n rfl
  case lui => exact immediateWord_of_roundTrip (fun _ _ _ => rfl) fun a d k => Laws.RoundTrip.lui a d k rfl
  case left => exact writeReg_regResult_of_eq (shiftLeft_eq_ofNat _ n.toNat) s d
  case right => exact writeReg_regResult_of_eq (ushiftRight_eq_ofNat _ n.toNat) s d
  case leftVariable =>
    rw [← shiftCount_toNat]
    exact writeReg_regResult_of_eq (shiftLeft_eq_ofNat _ (shiftCount (s.getReg a)).toNat) s d
  case rightVariable =>
    rw [← shiftCount_toNat]
    exact writeReg_regResult_of_eq (ushiftRight_eq_ofNat _ (shiftCount (s.getReg a)).toNat) s d
  case upperImmediate => exact writeReg_regResult s d (uimm k)

/-- Settles O40: the round trips of the two encodings, and the register each handler writes. -/
theorem arithmeticShiftsRoundDown : Obligations.ArithmeticShiftsRoundDown := by
  refine ⟨?sra, ?srav, fun a b d n s => ?fixed, fun a b d n s => ?counted⟩
  case sra => exact specialWord_of_roundTrip (fun _ _ _ _ => rfl) fun a b d n => Laws.RoundTrip.sra a b d n rfl
  case srav => exact specialWord_of_roundTrip (fun _ _ _ _ => rfl) fun a b d n => Laws.RoundTrip.srav a b d n rfl
  case fixed => exact writeReg_regResult_of_eq (sshiftRight_eq_ofInt_fdiv _ n.toNat) s d
  case counted =>
    rw [← shiftCount_toNat]
    exact writeReg_regResult_of_eq (sshiftRight_eq_ofInt_fdiv _ (shiftCount (s.getReg a)).toNat) s d

end Sys2Proof.Proofs
end

section
/-! PROOFS. Loads, stores and the unaligned forms (45_load_store.md R141 to R153). Three shapes carry the family: a load whose
read the accessor answers, a store whose write it performs, and a handler that takes a fault; each is proved once, for any
accessor. What `FlatLE` does is the case of its own answer, and its bytes after a write are listed here as the rules list
them, from the effective address upward. -/

namespace Sys2Proof.Proofs

open Sys2Proof.Machine Sys2Proof.Statements

/-! ## The shapes of the handlers (20_memory.md R57, 60_exceptions.md R222) -/

theorem received_call (s : State) (c : Config.MemCall) : s.received (.call c) = backingAfter s c := by
  unfold State.received backingAfter
  cases s.params.mem <;> rfl

theorem loadInto_loadResult {got : Option Word} {v : Word} (h : got = some v) (s : State) (addr : Word)
    (c : Config.MemCall) (d : RegIdx) : LoadResult (loadInto s addr c d got) s c d v := by
  subst h
  exact ⟨_, rfl, fun r => setReg_getReg (s.advance.callMem c) d r v, ⟨rfl, rfl⟩, rfl, rfl, rfl, fun _ => rfl,
    received_call s c, ⟨rfl, rfl⟩⟩

theorem storeTo_storeResult {got : Option Memory} {m : Memory} {byte : Word → Byte} (h : got = some m)
    (hbyte : ∀ x, m.byteAt x = byte x) (s : State) (addr : Word) (c : Config.MemCall) :
    StoreResult (storeTo s addr c got) s c byte := by
  subst h
  exact ⟨_, rfl, hbyte, received_call s c, fun _ => rfl, ⟨rfl, rfl⟩, rfl, rfl, rfl, ⟨rfl, rfl⟩⟩

theorem faultWith_faultEntry (s : State) (k : FaultKind) (c : FaultCause) (w : Word) :
    FaultEntry (faultWith s k c w) s k c w :=
  ⟨_, rfl, rfl, ⟨rfl, rfl⟩, fun _ => rfl, rfl, rfl, ⟨fun _ => rfl, rfl⟩, ⟨rfl, rfl⟩, rfl⟩

/-! ## Each load, on an accessor that answers its read (R141 to R145) -/

section Loads

variable {s : State} {a : RegIdx} {k : Half} (d : RegIdx)

theorem lb_loadResult {b : Byte} (h : s.read8 (ea s a k) = some b) :
    LoadResult (exec (.lb a d k) s) s (.read8 (ea s a k)) d (b.signExtend 32) :=
  loadInto_loadResult (congrArg (Option.map (BitVec.signExtend 32)) h) s _ _ d

theorem lbu_loadResult {b : Byte} (h : s.read8 (ea s a k) = some b) :
    LoadResult (exec (.lbu a d k) s) s (.read8 (ea s a k)) d (b.zeroExtend 32) :=
  loadInto_loadResult (congrArg (Option.map (BitVec.zeroExtend 32)) h) s _ _ d

theorem lh_loadResult {v : Half} (h : s.read16 (ea s a k) = some v) :
    LoadResult (exec (.lh a d k) s) s (.read16 (ea s a k)) d (v.signExtend 32) :=
  loadInto_loadResult (congrArg (Option.map (BitVec.signExtend 32)) h) s _ _ d

theorem lhu_loadResult {v : Half} (h : s.read16 (ea s a k) = some v) :
    LoadResult (exec (.lhu a d k) s) s (.read16 (ea s a k)) d (v.zeroExtend 32) :=
  loadInto_loadResult (congrArg (Option.map (BitVec.zeroExtend 32)) h) s _ _ d

theorem lw_loadResult {v : Word} (h : s.read32 (ea s a k) = some v) :
    LoadResult (exec (.lw a d k) s) s (.read32 (ea s a k)) d v :=
  loadInto_loadResult h s _ _ d

end Loads

/-- Settles O41: the round trips of the two encodings, and the answer of the read, which on `FlatLE` is the byte. -/
theorem byteLoads : Obligations.ByteLoads := by
  refine ⟨?lb, ?lbu, fun a d k s hf => ?signed, fun a d k s hf => ?unsigned, fun a d k s b h => ?answered⟩
  case lb => exact immediateWord_of_roundTrip (fun _ _ _ => rfl) fun a d k => Laws.RoundTrip.lb a d k rfl
  case lbu => exact immediateWord_of_roundTrip (fun _ _ _ => rfl) fun a d k => Laws.RoundTrip.lbu a d k rfl
  case signed => exact lb_loadResult d (read8_flatLE hf _)
  case unsigned => exact lbu_loadResult d (read8_flatLE hf _)
  case answered => exact ⟨lb_loadResult d h, lbu_loadResult d h⟩

/-- Settles O42: the round trips of the three encodings, and the answer of the read, which where `FlatLE` performs it is
the little-endian value. -/
theorem halfwordAndWordLoads : Obligations.HalfwordAndWordLoads := by
  refine ⟨?lh, ?lhu, ?lw, fun a d k s hacc => ?signed, fun a d k s hacc => ?unsigned, fun a d k s hacc => ?word,
    fun a d k s v h => ?answeredHalf, fun a d k s v h => ?answeredWord⟩
  case lh => exact immediateWord_of_roundTrip (fun _ _ _ => rfl) fun a d k => Laws.RoundTrip.lh a d k rfl
  case lhu => exact immediateWord_of_roundTrip (fun _ _ _ => rfl) fun a d k => Laws.RoundTrip.lhu a d k rfl
  case lw => exact immediateWord_of_roundTrip (fun _ _ _ => rfl) fun a d k => Laws.RoundTrip.lw a d k rfl
  case signed => exact lh_loadResult d (read16_of_accepted hacc)
  case unsigned => exact lhu_loadResult d (read16_of_accepted hacc)
  case word => exact lw_loadResult d (read32_of_accepted hacc)
  case answeredHalf => exact ⟨lh_loadResult d h, lhu_loadResult d h⟩
  case answeredWord => exact lw_loadResult d h

/-! ## Each store, on an accessor that performs its write (R146 to R148) -/

section Stores

variable {s : State} {a b : RegIdx} {k : Half} {m : Memory} {byte : Word → Byte} (hbyte : ∀ x, m.byteAt x = byte x)
include hbyte

theorem sb_storeResult (h : s.write8 (ea s a k) ((s.getReg b).extractLsb' 0 8) = some m) :
    StoreResult (exec (.sb a b k) s) s (.write8 (ea s a k) ((s.getReg b).extractLsb' 0 8)) byte :=
  storeTo_storeResult h hbyte s _ _

theorem sh_storeResult (h : s.write16 (ea s a k) ((s.getReg b).extractLsb' 0 16) = some m) :
    StoreResult (exec (.sh a b k) s) s (.write16 (ea s a k) ((s.getReg b).extractLsb' 0 16)) byte :=
  storeTo_storeResult h hbyte s _ _

theorem sw_storeResult (h : s.write32 (ea s a k) (s.getReg b) = some m) :
    StoreResult (exec (.sw a b k) s) s (.write32 (ea s a k) (s.getReg b)) byte :=
  storeTo_storeResult h hbyte s _ _

end Stores

/-! ## The bytes of `FlatLE` after a write, from the effective address upward (20_memory.md R41) -/

/-- What SH stores: the low two bytes of a word. The two addresses are distinct, past the wrap at 2^32 too. -/
theorem byteAt_writeHalf_of_word {m : Memory} (h : m.wf = true) (a x v : Word) :
    (m.writeHalf a (v.extractLsb' 0 16)).byteAt x =
      if x = a then v.extractLsb' 0 8 else if x = a + 1#32 then v.extractLsb' 8 8 else m.byteAt x := by
  have hlow : (v.extractLsb' 0 16).extractLsb' 0 8 = v.extractLsb' 0 8 :=
    BitVec.extractLsb'_extractLsb'_of_le (by decide)
  have hhigh : (v.extractLsb' 0 16).extractLsb' 8 8 = v.extractLsb' 8 8 :=
    BitVec.extractLsb'_extractLsb'_of_le (by decide)
  have hne : x = a + 1#32 → ¬ x = a := fun hx => hx ▸ addr_ne_self a (by decide)
  rw [byteAt_writeHalf h, hlow, hhigh, ite_ite_comm (h := hne)]

theorem byteAt_writeWord_ascending {m : Memory} (h : m.wf = true) (a x v : Word) :
    (m.writeWord a v).byteAt x =
      if x = a then v.extractLsb' 0 8 else if x = a + 1#32 then v.extractLsb' 8 8
      else if x = a + 2#32 then v.extractLsb' 16 8 else if x = a + 3#32 then v.extractLsb' 24 8 else m.byteAt x := by
  obtain ⟨h0, h1, h2, h3⟩ := bytes_of_writeWord h a v
  split_ifs with e0 e1 e2 e3
  · rw [e0, h0]
  · rw [e1, h1]
  · rw [e2, h2]
  · rw [e3, h3]
  · rw [byteAt_writeWord h, if_neg e3, if_neg e2, if_neg e1, if_neg e0]

/-- Settles O43: the round trip of the encoding, and the write, which on `FlatLE` changes the one byte. -/
theorem byteStore : Obligations.ByteStore := by
  refine ⟨?sb, fun a b k s hf hw => ?flat, fun a b k s m h => ?performed⟩
  case sb => exact immediateWord_of_roundTrip (fun _ _ _ => rfl) fun a b k => Laws.RoundTrip.sb a b k rfl
  case flat => exact sb_storeResult (fun x => byteAt_writeByte hw _ x _) (write8_flatLE hf _ _)
  case performed => exact sb_storeResult (fun _ => rfl) h

/-- Settles O44: the round trips of the two encodings, and the write, which where `FlatLE` performs it changes the two or
four bytes. -/
theorem halfwordAndWordStores : Obligations.HalfwordAndWordStores := by
  refine ⟨?sh, ?sw, fun a b k s hw hacc => ?flatHalf, fun a b k s hw hacc => ?flatWord,
    fun a b k s m h => ?performedHalf, fun a b k s m h => ?performedWord⟩
  case sh => exact immediateWord_of_roundTrip (fun _ _ _ => rfl) fun a b k => Laws.RoundTrip.sh a b k rfl
  case sw => exact immediateWord_of_roundTrip (fun _ _ _ => rfl) fun a b k => Laws.RoundTrip.sw a b k rfl
  case flatHalf => exact sh_storeResult (fun x => byteAt_writeHalf_of_word hw _ x _) (write16_of_accepted hacc _)
  case flatWord => exact sw_storeResult (fun x => byteAt_writeWord_ascending hw _ x _) (write32_of_accepted hacc _)
  case performedHalf => exact sh_storeResult (fun _ => rfl) h
  case performedWord => exact sw_storeResult (fun _ => rfl) h

/-! ## The unaligned forms (R149 to R153) -/

/-- An instruction of the immediate form whose handler takes one fault, with the instruction's own word in the record. -/
theorem immediateWordFaults_of_roundTrip {o : BitVec 6} {i : RegIdx → RegIdx → Half → Instr} {k : FaultKind}
    {c : FaultCause} (henc : ∀ a d n, encode (i a d n) = encodeI o a d n)
    (hround : ∀ a d n, decode (encode (i a d n)) = i a d n)
    (hexec : ∀ a d n s, exec (i a d n) s = faultWith s k c (encode (i a d n))) : immediateWordFaults o i k c := by
  intro w s hop
  have hw : encode (i (rs w) (rt w) (imm w)) = w := by
    rw [henc, ← hop]
    exact fieldsI w
  refine ⟨immediateWord_of_roundTrip henc hround w hop, ?_⟩
  rw [hexec, hw]
  exact faultWith_faultEntry s k c w

/-- Settles O46: the round trips of the four encodings, and the fault each handler takes. -/
theorem unalignedFormsFault : Obligations.UnalignedFormsFault := by
  refine ⟨?lwl, ?lwr, ?swl, ?swr⟩
  case lwl =>
    exact immediateWordFaults_of_roundTrip (fun _ _ _ => rfl) (fun a d k => Laws.RoundTrip.lwl a d k rfl) fun _ _ _ _ => rfl
  case lwr =>
    exact immediateWordFaults_of_roundTrip (fun _ _ _ => rfl) (fun a d k => Laws.RoundTrip.lwr a d k rfl) fun _ _ _ _ => rfl
  case swl =>
    exact immediateWordFaults_of_roundTrip (fun _ _ _ => rfl) (fun a d k => Laws.RoundTrip.swl a d k rfl) fun _ _ _ _ => rfl
  case swr =>
    exact immediateWordFaults_of_roundTrip (fun _ _ _ => rfl) (fun a d k => Laws.RoundTrip.swr a d k rfl) fun _ _ _ _ => rfl

end Sys2Proof.Proofs
end

section
/-! PROOFS. MULT, MULTU and the moves of HI and LO (46_muldiv.md R161, R162, R165 to R168). Their words decode, and their
handlers write one register or HI and LO, as in any instruction of the two shapes. What is particular to the products is that
the two halves of a 64-bit pattern, put side by side, are the pattern again, and that 64 bits hold the exact product of two
words, signed or unsigned, so that nothing is lost to the modulus. -/

namespace Sys2Proof.Proofs

open Sys2Proof.Machine Sys2Proof.Statements

/-! ## A handler that writes HI and LO (40_step_dispatch.md R82, 46_muldiv.md R160) -/

theorem writeHiLo_hiLoResult (s : State) (h l : Word) : HiLoResult (writeHiLo s h l) s h l :=
  ⟨_, rfl, fun r => setHiLo_getReg s.advance h l r, ⟨rfl, rfl⟩, rfl, rfl, rfl, ⟨fun _ => rfl, rfl⟩, ⟨rfl, rfl⟩⟩

/-- HI and LO, read as one 64-bit pattern, are the pattern that `writeProduct` was given. -/
theorem writeProduct_hiLoResult (s : State) (p : BitVec 64) :
    ∃ h l, HiLoResult (writeProduct s p) s h l ∧ h ++ l = p :=
  ⟨_, _, writeHiLo_hiLoResult s _ _, BitVec.extractLsb'_append_extractLsb' (w := 32) (len := 32)⟩

/-! ## 64 bits hold the exact product of two words (R161, R162) -/

/-- R161's bounds on the exact product, -2^62 and 2^62, lie within the signed values of 64 bits. -/
theorem toInt_ofInt_signedProduct (x y : Word) : (BitVec.ofInt 64 (x.toInt * y.toInt)).toInt = x.toInt * y.toInt := by
  have hlow : -2 ^ 62 ≤ x.toInt * y.toInt := BitVec.le_toInt_mul_toInt
  have hhigh : x.toInt * y.toInt ≤ 2 ^ 62 := BitVec.toInt_mul_toInt_le
  exact BitVec.toInt_ofInt_eq_self (by decide) (hlow.trans' (by decide)) (hhigh.trans_lt (by decide))

theorem toNat_ofNat_unsignedProduct (x y : Word) :
    (BitVec.ofNat 64 (x.toNat * y.toNat)).toNat = x.toNat * y.toNat := by
  rw [BitVec.toNat_ofNat, Nat.mod_eq_of_lt BitVec.toNat_mul_toNat_lt]

/-- Settles O47: the round trips of the two encodings, and the pattern each handler puts into HI and LO, whose value is the
exact product. -/
theorem productsAreExact : Obligations.ProductsAreExact := by
  refine ⟨?mult, ?multu, fun a b d n s => ?signed, fun a b d n s => ?unsigned⟩
  case mult => exact specialWord_of_roundTrip (fun _ _ _ _ => rfl) fun a b d n => Laws.RoundTrip.mult a b d n rfl
  case multu => exact specialWord_of_roundTrip (fun _ _ _ _ => rfl) fun a b d n => Laws.RoundTrip.multu a b d n rfl
  case signed =>
    obtain ⟨h, l, hres, hp⟩ := writeProduct_hiLoResult s (BitVec.ofInt 64 ((s.getReg a).toInt * (s.getReg b).toInt))
    exact ⟨h, l, hres, (congrArg BitVec.toInt hp).trans (toInt_ofInt_signedProduct _ _)⟩
  case unsigned =>
    obtain ⟨h, l, hres, hp⟩ := writeProduct_hiLoResult s (BitVec.ofNat 64 ((s.getReg a).toNat * (s.getReg b).toNat))
    exact ⟨h, l, hres, (congrArg BitVec.toNat hp).trans (toNat_ofNat_unsignedProduct _ _)⟩

/-- Settles O49: the round trips of the four encodings, and what each handler writes. -/
theorem hiLoMoves : Obligations.HiLoMoves := by
  refine ⟨?mfhi, ?mflo, ?mthi, ?mtlo, fun a b d n s => ?fromHi, fun a b d n s => ?fromLo, fun a b d n s => ?toHi,
    fun a b d n s => ?toLo⟩
  case mfhi => exact specialWord_of_roundTrip (fun _ _ _ _ => rfl) fun a b d n => Laws.RoundTrip.mfhi a b d n rfl
  case mflo => exact specialWord_of_roundTrip (fun _ _ _ _ => rfl) fun a b d n => Laws.RoundTrip.mflo a b d n rfl
  case mthi => exact specialWord_of_roundTrip (fun _ _ _ _ => rfl) fun a b d n => Laws.RoundTrip.mthi a b d n rfl
  case mtlo => exact specialWord_of_roundTrip (fun _ _ _ _ => rfl) fun a b d n => Laws.RoundTrip.mtlo a b d n rfl
  case fromHi => exact writeReg_regResult s d s.hi
  case fromLo => exact writeReg_regResult s d s.lo
  case toHi => exact writeHiLo_hiLoResult s (s.getReg a) s.lo
  case toLo => exact writeHiLo_hiLoResult s s.hi (s.getReg a)

end Sys2Proof.Proofs
end

section
/-! PROOFS. J, JAL and JR (47_jump.md R171 to R173). JR's words decode as any of the register form; J and JAL are of the
jump form, whose words decode by the same argument over their one field. The handlers are a jump or a jump that links, and
each is proved once, for any target and any link register: the pair advances first, so the link and the region bits of the
target are read from the advanced `pc`, and then the target takes the place of `nextPC`. -/

namespace Sys2Proof.Proofs

open Sys2Proof.Machine Sys2Proof.Statements

/-- Every word of an instruction of the jump form decodes to it, because its own encoding round-trips (30_encoding.md
R62). -/
theorem decode_of_jumpForm {o : BitVec 6} {c : BitVec 26 → Instr} (henc : ∀ x, encode (c x) = encodeJ o x)
    (hround : ∀ x, decode (encode (c x)) = c x) (w : Word) (hop : op w = o) : decode w = c (target w) := by
  have hw : encode (c (target w)) = w := by
    rw [henc, ← hop]
    exact fieldsJ w
  simpa only [hw] using hround (target w)

/-! ## A handler that jumps, without and with a link (47_jump.md R170) -/

theorem jumpTo_jumpResult (s : State) (a : Word) : JumpResult (jumpTo s a) s a :=
  ⟨_, rfl, fun r => advance_getReg s r, rfl, rfl, rfl, rfl, rfl, ⟨fun _ => rfl, rfl⟩, ⟨rfl, rfl⟩⟩

theorem jumpAndLink_linkResult (s : State) (d : RegIdx) (a : Word) : LinkResult (jumpAndLink s d a) s d a :=
  ⟨_, rfl, fun r => setReg_getReg s.advance d r (s.nextPC + 4#32), rfl, rfl, rfl, rfl, rfl, ⟨fun _ => rfl, rfl⟩,
    ⟨rfl, rfl⟩⟩

/-- Settles O50: the round trips of the three encodings, and the jump each handler makes. -/
theorem jumpsSetTheNextPC : Obligations.JumpsSetTheNextPC := by
  refine ⟨?j, ?jal, ?jr, fun x s => ?jump, fun x s => ?link, fun a b d n s => ?register⟩
  case j => exact decode_of_jumpForm (fun _ => rfl) fun x => Laws.RoundTrip.j x rfl
  case jal => exact decode_of_jumpForm (fun _ => rfl) fun x => Laws.RoundTrip.jal x rfl
  case jr => exact specialWord_of_roundTrip (fun _ _ _ _ => rfl) fun a b d n => Laws.RoundTrip.jr a b d n rfl
  case jump => exact jumpTo_jumpResult s (jumpTarget s x)
  case link => exact jumpAndLink_linkResult s 31#5 (jumpTarget s x)
  case register => exact jumpTo_jumpResult s (s.getReg a)

end Sys2Proof.Proofs
end

section
/-! PROOFS. Decoding, encoding and the opcode table (30_encoding.md R60 to R71). One direction of the round trip is each
constructor's own law; the other follows the decoder's dispatch, where the forms put a word back together from its fields.
The table agrees with the dispatch because its rows look at `op`, and beside it only at `funct` in the group of opcode 0 and at
`rt` in that of opcode 1, so that one word stands for all that the dispatch does not tell apart. -/

namespace Sys2Proof.Proofs

open Sys2Proof.Machine Sys2Proof.Statements

/-! ## Every instruction is read back from its word -/

/-- Every instruction's own round trip (Laws.RoundTrip), one constructor each. -/
theorem decode_encode (i : Instr) : Laws.RoundTrip.Statement i := by
  cases i with
  | sll => apply Laws.RoundTrip.sll
  | srl => apply Laws.RoundTrip.srl
  | sra => apply Laws.RoundTrip.sra
  | sllv => apply Laws.RoundTrip.sllv
  | srlv => apply Laws.RoundTrip.srlv
  | srav => apply Laws.RoundTrip.srav
  | jr => apply Laws.RoundTrip.jr
  | jalr => apply Laws.RoundTrip.jalr
  | syscall => apply Laws.RoundTrip.syscall
  | brk => apply Laws.RoundTrip.brk
  | mfhi => apply Laws.RoundTrip.mfhi
  | mthi => apply Laws.RoundTrip.mthi
  | mflo => apply Laws.RoundTrip.mflo
  | mtlo => apply Laws.RoundTrip.mtlo
  | mult => apply Laws.RoundTrip.mult
  | multu => apply Laws.RoundTrip.multu
  | div => apply Laws.RoundTrip.div
  | divu => apply Laws.RoundTrip.divu
  | add => apply Laws.RoundTrip.add
  | addu => apply Laws.RoundTrip.addu
  | sub => apply Laws.RoundTrip.sub
  | subu => apply Laws.RoundTrip.subu
  | and => apply Laws.RoundTrip.and
  | or => apply Laws.RoundTrip.or
  | xor => apply Laws.RoundTrip.xor
  | nor => apply Laws.RoundTrip.nor
  | slt => apply Laws.RoundTrip.slt
  | sltu => apply Laws.RoundTrip.sltu
  | bltzal => apply Laws.RoundTrip.bltzal
  | bgezal => apply Laws.RoundTrip.bgezal
  | bltz => apply Laws.RoundTrip.bltz
  | bgez => apply Laws.RoundTrip.bgez
  | j => apply Laws.RoundTrip.j
  | jal => apply Laws.RoundTrip.jal
  | beq => apply Laws.RoundTrip.beq
  | bne => apply Laws.RoundTrip.bne
  | blez => apply Laws.RoundTrip.blez
  | bgtz => apply Laws.RoundTrip.bgtz
  | addi => apply Laws.RoundTrip.addi
  | addiu => apply Laws.RoundTrip.addiu
  | slti => apply Laws.RoundTrip.slti
  | sltiu => apply Laws.RoundTrip.sltiu
  | andi => apply Laws.RoundTrip.andi
  | ori => apply Laws.RoundTrip.ori
  | xori => apply Laws.RoundTrip.xori
  | lui => apply Laws.RoundTrip.lui
  | cop0 => apply Laws.RoundTrip.cop0
  | cop1 => apply Laws.RoundTrip.cop1
  | cop2 => apply Laws.RoundTrip.cop2
  | cop3 => apply Laws.RoundTrip.cop3
  | lb => apply Laws.RoundTrip.lb
  | lh => apply Laws.RoundTrip.lh
  | lwl => apply Laws.RoundTrip.lwl
  | lw => apply Laws.RoundTrip.lw
  | lbu => apply Laws.RoundTrip.lbu
  | lhu => apply Laws.RoundTrip.lhu
  | lwr => apply Laws.RoundTrip.lwr
  | sb => apply Laws.RoundTrip.sb
  | sh => apply Laws.RoundTrip.sh
  | swl => apply Laws.RoundTrip.swl
  | sw => apply Laws.RoundTrip.sw
  | swr => apply Laws.RoundTrip.swr
  | lwc0 => apply Laws.RoundTrip.lwc0
  | lwc1 => apply Laws.RoundTrip.lwc1
  | lwc2 => apply Laws.RoundTrip.lwc2
  | lwc3 => apply Laws.RoundTrip.lwc3
  | swc0 => apply Laws.RoundTrip.swc0
  | swc1 => apply Laws.RoundTrip.swc1
  | swc2 => apply Laws.RoundTrip.swc2
  | swc3 => apply Laws.RoundTrip.swc3
  | invalidSpecial => apply Laws.RoundTrip.invalidSpecial
  | invalid => apply Laws.RoundTrip.invalid

/-- Settles O1, by the round trip of each constructor. -/
theorem decodeReadsBackEveryEncoding : Obligations.DecodeReadsBackEveryEncoding := decode_encode

/-- Settles O6: closed instances of the decoder. -/
theorem wordsOfTheSpecDecode : Obligations.WordsOfTheSpecDecode := by
  unfold Obligations.WordsOfTheSpecDecode
  decide

/-! ## Every word is the encoding of what it decodes to -/

theorem wellFormed_decodeSpecial (w : Word) : (decodeSpecial w).wellFormed = true := by
  unfold decodeSpecial
  split
  case h_29 => simp_all [Instr.wellFormed, assignedFunct]
  all_goals rfl

/-- The special group: SYSCALL, BREAK and the unassigned codes keep bits 25:6 whole, every other form its four fields. -/
theorem encode_decodeSpecial {w : Word} (hop : fieldOp w = 0x00#6) : encode (decodeSpecial w) = w := by
  have hR := fieldsR w
  have hcode := fieldsCode w hop
  rw [hop] at hR
  unfold decodeSpecial
  split
  case h_9 hf | h_10 hf =>
    rw [hf] at hcode
    exact hcode
  case h_29 => exact hcode
  all_goals
    rename_i hf
    rw [hf] at hR
    exact hR

/-- The linking forms keep no `rt`: their two selectors determine it. -/
theorem rt_of_selectors : ∀ r : RegIdx, linkSelector r = true →
    (geSelector r = false → r = 0b10000#5) ∧ (geSelector r = true → r = 0b10001#5) := by
  decide

theorem wellFormed_decodeBranchLink (w : Word) : (decodeBranchLink w).wellFormed = true := by
  have hbit : ∀ r : RegIdx, geSelector r = false → r.extractLsb' 0 1 = 0#1 := by decide
  unfold decodeBranchLink
  split
  case h_1 hlink hge => simpa [Instr.wellFormed, linkSelector, hbit _ hge] using hlink
  case h_2 hlink hge => simpa [Instr.wellFormed, linkSelector, geSelector] using And.intro hge hlink
  all_goals rfl

theorem encode_decodeBranchLink {w : Word} (hop : fieldOp w = 0x01#6) : encode (decodeBranchLink w) = w := by
  have hI := fieldsI w
  rw [hop] at hI
  unfold decodeBranchLink
  split
  case h_1 | h_2 => exact hI
  case h_3 hlink hge =>
    rw [(rt_of_selectors _ hlink).1 hge] at hI
    exact hI
  case h_4 hlink hge =>
    rw [(rt_of_selectors _ hlink).2 hge] at hI
    exact hI

theorem wellFormed_decode (w : Word) : (decode w).wellFormed = true := by
  unfold decode
  split
  case h_1 => exact wellFormed_decodeSpecial w
  case h_2 => exact wellFormed_decodeBranchLink w
  case h_41 => simp_all [Instr.wellFormed, listedOpcode]
  all_goals rfl

theorem encode_decode (w : Word) : encode (decode w) = w := by
  have hI := fieldsI w
  have hJ := fieldsJ w
  unfold decode
  split
  case h_1 hop => exact encode_decodeSpecial hop
  case h_2 hop => exact encode_decodeBranchLink hop
  case h_3 hop | h_4 hop | h_18 hop | h_19 hop | h_20 hop =>
    rw [hop] at hJ
    exact hJ
  case h_17 hop => exact fieldsCop0 w hop
  case h_41 => exact hJ
  all_goals
    rename_i hop
    rw [hop] at hI
    exact hI

/-- Settles O2, along the decoder's dispatch. -/
theorem encodeRestoresEveryWord : Obligations.EncodeRestoresEveryWord :=
  fun w => ⟨wellFormed_decode w, encode_decode w⟩

/-! ## The opcode table (R71): which fields of a word its rows look at -/

theorem eq_iff_fields (v p : Word) : v = p ↔ fieldOp v = fieldOp p ∧ fieldRs v = fieldRs p ∧ fieldRt v = fieldRt p ∧
    fieldRd v = fieldRd p ∧ fieldShamt v = fieldShamt p ∧ fieldFunct v = fieldFunct p := by
  refine ⟨by rintro rfl; simp, fun ⟨ho, ha, hb, hd, hn, hf⟩ => ?_⟩
  rw [← fieldsR v, ← fieldsR p, ho, ha, hb, hd, hn, hf]

/-- A row accepts a word field by field. -/
theorem and_eq_iff_fields (w m p : Word) : w &&& m = p ↔
    fieldOp w &&& fieldOp m = fieldOp p ∧ fieldRs w &&& fieldRs m = fieldRs p ∧ fieldRt w &&& fieldRt m = fieldRt p ∧
      fieldRd w &&& fieldRd m = fieldRd p ∧ fieldShamt w &&& fieldShamt m = fieldShamt p ∧
      fieldFunct w &&& fieldFunct m = fieldFunct p := by
  rw [eq_iff_fields]
  unfold fieldOp fieldRs fieldRt fieldRd fieldShamt fieldFunct
  simp only [BitVec.extractLsb'_and]

/-- A row looks at `op` (all of it, or nothing), at `rt` only in the group of opcode 1, at `funct` only in that of opcode 0. -/
theorem opcodeTable_masks : ∀ r ∈ opcodeTable, fieldRs r.mask = 0#5 ∧ fieldRd r.mask = 0#5 ∧ fieldShamt r.mask = 0#5 ∧
    (fieldRt r.mask ≠ 0#5 → fieldOp r.mask = 63#6 ∧ fieldOp r.pattern = 0x01#6) ∧
    (fieldFunct r.mask ≠ 0#6 → fieldOp r.mask = 63#6 ∧ fieldOp r.pattern = 0x00#6) := by
  decide

theorem and_allOnes_opcode : ∀ o : BitVec 6, o &&& 63#6 = o := by decide

/-- Words with one opcode have one first row, if they agree in `rt` where the opcode is 1 and in `funct` where it is 0. -/
theorem firstMatch_congr {w v : Word} (hop : fieldOp w = fieldOp v) (hrt : fieldOp v = 0x01#6 → fieldRt w = fieldRt v)
    (hfunct : fieldOp v = 0x00#6 → fieldFunct w = fieldFunct v) : firstMatch w = firstMatch v := by
  refine List.find?_congr fun r hr => ?_
  obtain ⟨hrs, hrd, hshamt, hmaskRt, hmaskFunct⟩ := opcodeTable_masks r hr
  have hrt' : fieldOp v &&& fieldOp r.mask = fieldOp r.pattern →
      fieldRt w &&& fieldRt r.mask = fieldRt v &&& fieldRt r.mask := fun ho => by
    by_cases hm : fieldRt r.mask = 0#5
    · simp [hm]
    · obtain ⟨hall, hone⟩ := hmaskRt hm
      rw [hrt (by rwa [hall, and_allOnes_opcode, hone] at ho)]
  have hfunct' : fieldOp v &&& fieldOp r.mask = fieldOp r.pattern →
      fieldFunct w &&& fieldFunct r.mask = fieldFunct v &&& fieldFunct r.mask := fun ho => by
    by_cases hm : fieldFunct r.mask = 0#6
    · simp [hm]
    · obtain ⟨hall, hzero⟩ := hmaskFunct hm
      rw [hfunct (by rwa [hall, and_allOnes_opcode, hzero] at ho)]
  have haccepts : w &&& r.mask = r.pattern ↔ v &&& r.mask = r.pattern := by
    simp only [and_eq_iff_fields, hop, hrs, hrd, hshamt, BitVec.and_zero]
    exact and_congr_right fun ho => by rw [hrt' ho, hfunct' ho]
  exact Bool.eq_iff_iff.2 (by simpa using haccepts)

/-! ### One word stands for each code the dispatch tells apart -/

theorem firstMatch_of_op {w : Word} {o : BitVec 6} (hop : fieldOp w = o) (h0 : o ≠ 0x00#6) (h1 : o ≠ 0x01#6) :
    firstMatch w = firstMatch (encodeR o 0#5 0#5 0#5 0#5 0x00#6) :=
  firstMatch_congr (by simpa using hop) (fun h => absurd (by simpa using h) h1) fun h => absurd (by simpa using h) h0

theorem firstMatch_of_funct {w : Word} {f : BitVec 6} (hop : fieldOp w = 0x00#6) (hf : fieldFunct w = f) :
    firstMatch w = firstMatch (encodeR 0x00#6 0#5 0#5 0#5 0#5 f) :=
  firstMatch_congr (by simpa using hop) (fun h => absurd h (by simp)) fun _ => by simpa using hf

theorem firstMatch_of_rt {w : Word} {r : RegIdx} (hop : fieldOp w = 0x01#6) (hrt : fieldRt w = r) :
    firstMatch w = firstMatch (encodeR 0x01#6 0#5 r 0#5 0#5 0x00#6) :=
  firstMatch_congr (by simpa using hop) (fun _ => by simpa using hrt) fun h => absurd h (by simp)

theorem firstMatch_unassignedFunct : ∀ f : BitVec 6, assignedFunct f = false →
    (firstMatch (encodeR 0x00#6 0#5 0#5 0#5 0#5 f)).map (fun r => r.mnemonic) = some "INVALID_SPECIAL" := by
  decide

theorem firstMatch_unlistedOpcode : ∀ o : BitVec 6, listedOpcode o = false →
    (firstMatch (encodeR o 0#5 0#5 0#5 0#5 0x00#6)).map (fun r => r.mnemonic) = some "INVALID" := by
  decide

theorem firstMatch_branchLink : ∀ r : RegIdx,
    (firstMatch (encodeR 0x01#6 0#5 r 0#5 0#5 0x00#6)).map (fun r => r.mnemonic) =
      some (if linkSelector r then (if geSelector r then "BGEZAL" else "BLTZAL")
        else (if geSelector r then "BGEZ" else "BLTZ")) := by
  decide

theorem firstMatch_decodeSpecial {w : Word} (hop : fieldOp w = 0x00#6) :
    (firstMatch w).map (fun r => r.mnemonic) = some (decodeSpecial w).mnemonic := by
  unfold decodeSpecial
  split
  case h_29 =>
    rw [firstMatch_of_funct hop rfl]
    exact firstMatch_unassignedFunct _ (by simp_all [assignedFunct])
  all_goals
    rename_i hf
    rw [firstMatch_of_funct hop hf]
    rfl

theorem firstMatch_decodeBranchLink {w : Word} (hop : fieldOp w = 0x01#6) :
    (firstMatch w).map (fun r => r.mnemonic) = some (decodeBranchLink w).mnemonic := by
  rw [firstMatch_of_rt hop rfl, firstMatch_branchLink, decodeBranchLink_eq_ite]
  split <;> split <;> rfl

/-- Settles O3, along the decoder's dispatch, one representative word for each code it tells apart. -/
theorem firstMatchingRowIsTheHandler : Obligations.FirstMatchingRowIsTheHandler := by
  intro w
  unfold decode
  split
  case h_1 hop => exact firstMatch_decodeSpecial hop
  case h_2 hop => exact firstMatch_decodeBranchLink hop
  case h_41 =>
    have hlisted : listedOpcode (fieldOp w) = false := by simp_all [listedOpcode]
    rw [firstMatch_of_op rfl (by assumption) (by assumption)]
    exact firstMatch_unlistedOpcode _ hlisted
  all_goals
    rename_i hop
    rw [firstMatch_of_op hop (by decide) (by decide)]
    rfl

end Sys2Proof.Proofs
end
section
/-! PROOFS. What an instruction leaves unchanged (10_state.md section 7, 20_memory.md R48). One lemma, `exec_frame`, says of
every instruction what happens to everything outside the registers and the pair. Most handlers touch nothing there (`Quiet`);
what remains are the loads and stores, the multiply/divide family and the routed coprocessor-0 moves. -/

namespace Sys2Proof.Proofs

open Sys2Proof.Machine Sys2Proof.Statements

/-! ## The frame of an instruction -/

/-- The instructions that write HI (46_muldiv.md section 1). -/
def writesHi : Instr → Prop
  | .mult .. | .multu .. | .div .. | .divu .. | .mthi .. => True
  | _ => False

/-- The instructions that write LO (46_muldiv.md section 1). -/
def writesLo : Instr → Prop
  | .mult .. | .multu .. | .div .. | .divu .. | .mtlo .. => True
  | _ => False

/-- The coprocessor-0 calls among the port calls of a step. -/
def cop0Calls (calls : List PortCall) : List Config.Cop0Call :=
  calls.filterMap fun
    | .cop0 c => some c
    | .mem _ => none

/-- From `s` to `t`, all that an instruction `i` may do outside the general registers, the pair and the latch. -/
structure Frame (i : Instr) (s t : State) : Prop where
  params : t.params = s.params
  mem : ¬ isStore i ∨ ¬ onFlatLE s → t.mem = s.mem
  hi : t.hi = s.hi ∨ writesHi i
  lo : t.lo = s.lo ∨ writesLo i
  backing : t.backing = (dataAccess i s).elim s.backing (backingAfter s)
  cop0 : t.cop0 = s.cop0 ++ cop0Calls (dataCalls i s)

/-- From `s` to `t` nothing has changed but the general registers, the pair, the latch and the noted port calls. -/
structure Quiet (s t : State) : Prop where
  params : t.params = s.params
  mem : t.mem = s.mem
  hi : t.hi = s.hi
  lo : t.lo = s.lo
  backing : t.backing = s.backing
  cop0 : t.cop0 = s.cop0

/-- An instruction that calls no port. -/
def portless (i : Instr) (s : State) : Prop := dataAccess i s = none ∧ dataCalls i s = []

theorem Quiet.frame {i : Instr} {s t : State} (h : Quiet s t) (hi : portless i s) : Frame i s t where
  params := h.params
  mem _ := h.mem
  hi := .inl h.hi
  lo := .inl h.lo
  backing := by rw [hi.1, h.backing, Option.elim_none]
  cop0 := by rw [hi.2, h.cop0, cop0Calls, List.filterMap_nil, List.append_nil]

section Shapes

variable {s t : State}

theorem writeReg_quiet {d : RegIdx} {v : Word} (h : writeReg s d v = .next t) : Quiet s t := by
  cases h
  exact ⟨rfl, rfl, rfl, rfl, rfl, rfl⟩

theorem faultWith_quiet {k : FaultKind} {c : FaultCause} {w : Word} (h : faultWith s k c w = .next t) : Quiet s t := by
  cases h
  exact ⟨rfl, rfl, rfl, rfl, rfl, rfl⟩

theorem writeRegOrOverflow_quiet {o : Bool} {d : RegIdx} {v w : Word} (h : writeRegOrOverflow s o d v w = .next t) :
    Quiet s t := by
  unfold writeRegOrOverflow at h
  split at h
  · exact faultWith_quiet h
  · exact writeReg_quiet h

theorem jumpTo_quiet {a : Word} (h : jumpTo s a = .next t) : Quiet s t := by
  cases h
  exact ⟨rfl, rfl, rfl, rfl, rfl, rfl⟩

theorem jumpAndLink_quiet {d : RegIdx} {a : Word} (h : jumpAndLink s d a = .next t) : Quiet s t := by
  cases h
  exact ⟨rfl, rfl, rfl, rfl, rfl, rfl⟩

theorem advance_quiet (s : State) : Quiet s s.advance := ⟨rfl, rfl, rfl, rfl, rfl, rfl⟩

theorem branchIf_quiet {c : Bool} {off : Word} (h : branchIf s c off = .next t) : Quiet s t := by
  cases c with
  | false => cases h; exact advance_quiet s
  | true => exact jumpTo_quiet h

theorem branchLinkIf_quiet {c : Bool} {off : Word} (h : branchLinkIf s c off = .next t) : Quiet s t := by
  cases c with
  | false => cases h; exact advance_quiet s
  | true => exact jumpAndLink_quiet h

variable {i : Instr}

theorem loadInto_frame {a : Word} {c : Config.MemCall} {d : RegIdx} {got : Option Word}
    (hi : dataAccess i s = some c) (hc : dataCalls i s = [.mem c]) (h : loadInto s a c d got = .next t) :
    Frame i s t := by
  cases got with
  | none => cases h
  | some v =>
    cases h
    exact ⟨rfl, fun _ => rfl, .inl rfl, .inl rfl, by rw [hi]; exact received_call s c,
      by rw [hc]; exact (List.append_nil _).symm⟩

/-- A store, the byte array of a bound accessor being out of its reach. -/
theorem storeTo_frame {a : Word} {c : Config.MemCall} {got : Option Memory} (hi : dataAccess i s = some c)
    (hc : dataCalls i s = [.mem c]) (his : isStore i) (hgot : ∀ m, ¬ onFlatLE s → got = some m → m = s.mem)
    (h : storeTo s a c got = .next t) : Frame i s t := by
  cases got with
  | none => cases h
  | some m =>
    cases h
    refine ⟨rfl, fun hm => ?_, .inl rfl, .inl rfl, by rw [hi]; exact received_call s c,
      by rw [hc]; exact (List.append_nil _).symm⟩
    exact hgot m (hm.resolve_left fun hn => hn his) rfl

theorem bound_of_not_flatLE (h : ¬ onFlatLE s) : ∃ k, s.params.mem = .bound k := by
  cases hm : s.params.mem with
  | flatLE => exact absurd hm h
  | bound k => exact ⟨k, rfl⟩

theorem write8_of_not_flatLE {a : Word} {v : Byte} {m : Memory} (hn : ¬ onFlatLE s) (h : s.write8 a v = some m) :
    m = s.mem := by
  obtain ⟨k, hk⟩ := bound_of_not_flatLE hn
  exact boundWrite_eq (write8_bound hk a v ▸ h)

theorem write16_of_not_flatLE {a : Word} {v : Half} {m : Memory} (hn : ¬ onFlatLE s) (h : s.write16 a v = some m) :
    m = s.mem := by
  obtain ⟨k, hk⟩ := bound_of_not_flatLE hn
  exact boundWrite_eq (write16_bound hk a v ▸ h)

theorem write32_of_not_flatLE {a v : Word} {m : Memory} (hn : ¬ onFlatLE s) (h : s.write32 a v = some m) :
    m = s.mem := by
  obtain ⟨k, hk⟩ := bound_of_not_flatLE hn
  exact boundWrite_eq (write32_bound hk a v ▸ h)

theorem execCop0_frame {sub rt rd : RegIdx} {low : BitVec 11} (h : execCop0 sub rt rd low s = .next t) :
    Frame (.cop0 sub rt rd low) s t := by
  by_cases hr : s.params.cop0MovesEnabled = true ∧ (sub = 0#5 ∨ sub = 4#5)
  · obtain ⟨hon, rfl | rfl⟩ := hr
    · rw [execCop0_moveFrom hon] at h
      cases h
      exact ⟨rfl, fun _ => rfl, .inl rfl, .inl rfl, rfl, by simp [dataCalls, hon, cop0Calls]⟩
    · rw [execCop0_moveTo hon] at h
      cases h
      exact ⟨rfl, fun _ => rfl, .inl rfl, .inl rfl, rfl, by simp [dataCalls, hon, cop0Calls]⟩
  · rw [execCop0_fault hr] at h
    exact (faultWith_quiet h).frame ⟨rfl, dataCalls_cop0_fault hr rt rd low⟩

end Shapes

/-- What every instruction leaves unchanged. -/
theorem exec_frame {i : Instr} {s t : State} (h : exec i s = .next t) : Frame i s t := by
  cases i with
  | sll | srl | sra | sllv | srlv | srav => exact (writeReg_quiet h).frame ⟨rfl, rfl⟩
  | mfhi | mflo => exact (writeReg_quiet h).frame ⟨rfl, rfl⟩
  | addu | subu | and | or | xor | nor | slt | sltu => exact (writeReg_quiet h).frame ⟨rfl, rfl⟩
  | addiu | slti | sltiu | andi | ori | xori | lui => exact (writeReg_quiet h).frame ⟨rfl, rfl⟩
  | add | sub | addi => exact (writeRegOrOverflow_quiet h).frame ⟨rfl, rfl⟩
  | mult | multu | div | divu =>
    cases h
    exact ⟨rfl, fun _ => rfl, .inr trivial, .inr trivial, rfl, (List.append_nil _).symm⟩
  | mthi =>
    cases h
    exact ⟨rfl, fun _ => rfl, .inr trivial, .inl rfl, rfl, (List.append_nil _).symm⟩
  | mtlo =>
    cases h
    exact ⟨rfl, fun _ => rfl, .inl rfl, .inr trivial, rfl, (List.append_nil _).symm⟩
  | lb | lbu | lh | lhu | lw => exact loadInto_frame rfl rfl h
  | sb => exact storeTo_frame rfl rfl trivial (fun _ => write8_of_not_flatLE) h
  | sh => exact storeTo_frame rfl rfl trivial (fun _ => write16_of_not_flatLE) h
  | sw => exact storeTo_frame rfl rfl trivial (fun _ => write32_of_not_flatLE) h
  | j | jr => exact (jumpTo_quiet h).frame ⟨rfl, rfl⟩
  | jal | jalr => exact (jumpAndLink_quiet h).frame ⟨rfl, rfl⟩
  | beq | bne | blez | bgtz | bltz | bgez => exact (branchIf_quiet h).frame ⟨rfl, rfl⟩
  | bltzal | bgezal => exact (branchLinkIf_quiet h).frame ⟨rfl, rfl⟩
  | cop0 => exact execCop0_frame h
  | syscall | brk | cop1 | cop2 | cop3 | lwl | lwr | swl | swr => exact (faultWith_quiet h).frame ⟨rfl, rfl⟩
  | lwc0 | lwc1 | lwc2 | lwc3 | swc0 | swc1 | swc2 | swc3 => exact (faultWith_quiet h).frame ⟨rfl, rfl⟩
  | invalidSpecial | invalid => exact (faultWith_quiet h).frame ⟨rfl, rfl⟩

/-! ## Registers, HI and LO -/

/-- Settles O24, by the transition of the instruction. -/
theorem onlyTheDestinationChanges : Obligations.OnlyTheDestinationChanges :=
  fun _ _ _ r h hr => (exec_transition h).getReg r hr

theorem exists_of_writesHi {i : Instr} (h : writesHi i) : ∃ a b d n, i = .mult a b d n ∨ i = .multu a b d n ∨
    i = .div a b d n ∨ i = .divu a b d n ∨ i = .mthi a b d n := by
  cases i with
  | mult a b d n | multu a b d n | div a b d n | divu a b d n | mthi a b d n => exact ⟨a, b, d, n, by simp⟩
  | _ => cases h

theorem exists_of_writesLo {i : Instr} (h : writesLo i) : ∃ a b d n, i = .mult a b d n ∨ i = .multu a b d n ∨
    i = .div a b d n ∨ i = .divu a b d n ∨ i = .mtlo a b d n := by
  cases i with
  | mult a b d n | multu a b d n | div a b d n | divu a b d n | mtlo a b d n => exact ⟨a, b, d, n, by simp⟩
  | _ => cases h

/-- Settles O25, by the frame of the instruction. -/
theorem onlyMultiplyDivideChangesHiLo : Obligations.OnlyMultiplyDivideChangesHiLo :=
  fun _ _ _ h => ⟨(exec_frame h).hi.imp_right exists_of_writesHi, (exec_frame h).lo.imp_right exists_of_writesLo⟩

/-! ## Memory, the parameters and the ports, over a step -/

/-- Settles O23, by the frame of the instruction at `pc` from the state of the fetch. -/
theorem onlyStoresChangeMemory : Obligations.OnlyStoresChangeMemory := by
  refine ⟨fun s t h => ?_, fun s => ⟨hostReset_mem s, hostReset_backing s, hostReset_cop0 s, hostReset_params s⟩⟩
  have hf := exec_frame (exec_instrAtPC_of_step h)
  exact ⟨hf.params, hf.mem⟩

/-- An instruction makes at most one call after its fetch. -/
theorem dataCalls_length_le (i : Instr) (s : State) : (dataCalls i s).length ≤ 1 := by
  unfold dataCalls
  split
  · split_ifs <;> simp
  · cases dataAccess _ s <;> simp

/-- The fetch changes nothing that the calls of an instruction are read from. -/
theorem dataAccess_fetched (i : Instr) (s : State) : dataAccess i s.fetched = dataAccess i s := rfl

theorem dataCalls_fetched (i : Instr) (s : State) : dataCalls i s.fetched = dataCalls i s := rfl

theorem portCalls_of_step {s t : State} (h : step s = .next t) :
    t.portCalls = .mem (.read32 s.pc) :: dataCalls (instrAtPC s) s := by
  have ht := (exec_transition (exec_instrAtPC_of_step h)).portCalls
  rwa [fetched_portCalls, dataCalls_fetched] at ht

theorem backing_of_step {s t : State} (h : step s = .next t) :
    t.backing = (dataAccess (instrAtPC s) s).elim s.fetched.backing (backingAfter s.fetched) := by
  have ht := (exec_frame (exec_instrAtPC_of_step h)).backing
  rwa [dataAccess_fetched] at ht

theorem backingAfter_flatLE {s : State} (h : onFlatLE s) (c : Config.MemCall) : backingAfter s c = s.backing := by
  rw [← received_call, received_flatLE h]

theorem backingAfter_bound {s : State} {k : Nat} (h : s.params.mem = .bound k) (c : Config.MemCall) :
    backingAfter s c = .call c :: s.backing := by
  rw [← received_call, received_bound h]

/-- Settles O17: the calls from the transition of the instruction at `pc`, what reaches the backing from its frame. -/
theorem portCallsOfAStep : Obligations.PortCallsOfAStep := by
  intro s t h
  refine ⟨portCalls_of_step h, ?_, fun hf => ?_, fun k hk => ?_⟩
  · rw [portCalls_of_step h]
    exact Nat.succ_le_succ (dataCalls_length_le _ s)
  · rw [backing_of_step h, fetched_backing, received_flatLE hf]
    cases dataAccess (instrAtPC s) s with
    | none => rfl
    | some c => exact (backingAfter_flatLE (s := s.fetched) hf c).trans (received_flatLE hf _)
  · rw [backing_of_step h, fetched_backing, received_bound hk]
    cases dataAccess (instrAtPC s) s with
    | none => rfl
    | some c =>
      refine (backingAfter_bound (s := s.fetched) hk c).trans ?_
      rw [fetched_backing, received_bound hk]
      rfl

/-- With the moves disabled no instruction calls coprocessor 0. -/
theorem cop0_notMem_dataCalls {s : State} (hoff : s.params.cop0MovesEnabled = false) (i : Instr) (c : Config.Cop0Call) :
    PortCall.cop0 c ∉ dataCalls i s := by
  unfold dataCalls
  split
  · simp [hoff]
  · simp

theorem mem_cop0Calls {calls : List PortCall} {c : Config.Cop0Call} : c ∈ cop0Calls calls ↔ .cop0 c ∈ calls := by
  unfold cop0Calls
  rw [List.mem_filterMap]
  constructor
  · rintro ⟨_ | c', hmem, hc⟩
    · cases hc
    · cases hc
      exact hmem
  · exact fun h => ⟨_, h, rfl⟩

/-- Settles O26: with the moves disabled the calls of the step hold none at the coprocessor-0 port. -/
theorem coprocessorZeroIsSilentByDefault : Obligations.CoprocessorZeroIsSilentByDefault := by
  intro s t hoff h
  have hnone := cop0_notMem_dataCalls hoff (instrAtPC s)
  constructor
  · have ht := (exec_frame (exec_instrAtPC_of_step h)).cop0
    rw [dataCalls_fetched, List.eq_nil_iff_forall_not_mem.2 fun c hc => hnone c (mem_cop0Calls.1 hc)] at ht
    exact ht.trans (List.append_nil _)
  · intro c
    rw [portCalls_of_step h]
    simpa using hnone c

end Sys2Proof.Proofs
end

section
/-! PROOFS. The coprocessor, exception and invalid families (49_coproc_exception_invalid.md R191 to R198, R219). A word decodes
to the well-formed instruction that encodes to it, so a handler that only faults takes its fault at every such word, the
ignored bits kept in the record: `word_faults` says it once. COP0 alone looks at the parameters first. -/

namespace Sys2Proof.Proofs

open Sys2Proof.Machine Sys2Proof.Statements

/-! ## A word put together from its own fields, by form (30_encoding.md R61, R62) -/

theorem encodeJ_of_op {w : Word} {o : BitVec 6} (hop : op w = o) : encodeJ o (target w) = w := by
  subst hop
  exact fieldsJ w

theorem encodeCode_of_funct {w : Word} {f : BitVec 6} (hop : op w = 0x00#6) (hf : funct w = f) :
    encodeCode (w.extractLsb' 6 20) f = w := by
  subst hf
  exact fieldsCode w hop

/-! ## Handlers that only fault -/

theorem decode_of_encode {i : Instr} {w : Word} (hi : i.wellFormed = true) (hw : encode i = w) : decode w = i :=
  hw ▸ decode_encode i hi

/-- A word of an instruction that only faults. -/
theorem word_faults (i : Instr) {w : Word} {k : FaultKind} {c : FaultCause} (hi : i.wellFormed = true)
    (hw : encode i = w) (hexec : ∀ s, exec i s = faultWith s k c (encode i)) (s : State) :
    decode w = i ∧ FaultEntry (exec i s) s k c w := by
  refine ⟨decode_of_encode hi hw, ?_⟩
  rw [hexec, hw]
  exact faultWith_faultEntry s k c w

/-- Settles O56: COP2 by its own word, the eight loads and stores as instructions of the immediate form. -/
theorem coprocessorStubsFault : Obligations.CoprocessorStubsFault := by
  refine ⟨fun w s hop => ?cop2, ?lwc0, ?lwc1, ?lwc2, ?lwc3, ?swc0, ?swc1, ?swc2, ?swc3⟩
  case cop2 => exact word_faults (.cop2 _) rfl (encodeJ_of_op hop) (fun _ => rfl) s
  case lwc0 =>
    exact immediateWordFaults_of_roundTrip (fun _ _ _ => rfl) (fun a d k => Laws.RoundTrip.lwc0 a d k rfl) fun _ _ _ _ => rfl
  case lwc1 =>
    exact immediateWordFaults_of_roundTrip (fun _ _ _ => rfl) (fun a d k => Laws.RoundTrip.lwc1 a d k rfl) fun _ _ _ _ => rfl
  case lwc2 =>
    exact immediateWordFaults_of_roundTrip (fun _ _ _ => rfl) (fun a d k => Laws.RoundTrip.lwc2 a d k rfl) fun _ _ _ _ => rfl
  case lwc3 =>
    exact immediateWordFaults_of_roundTrip (fun _ _ _ => rfl) (fun a d k => Laws.RoundTrip.lwc3 a d k rfl) fun _ _ _ _ => rfl
  case swc0 =>
    exact immediateWordFaults_of_roundTrip (fun _ _ _ => rfl) (fun a d k => Laws.RoundTrip.swc0 a d k rfl) fun _ _ _ _ => rfl
  case swc1 =>
    exact immediateWordFaults_of_roundTrip (fun _ _ _ => rfl) (fun a d k => Laws.RoundTrip.swc1 a d k rfl) fun _ _ _ _ => rfl
  case swc2 =>
    exact immediateWordFaults_of_roundTrip (fun _ _ _ => rfl) (fun a d k => Laws.RoundTrip.swc2 a d k rfl) fun _ _ _ _ => rfl
  case swc3 =>
    exact immediateWordFaults_of_roundTrip (fun _ _ _ => rfl) (fun a d k => Laws.RoundTrip.swc3 a d k rfl) fun _ _ _ _ => rfl

/-- Settles O57: the word is the encoding of its bits 25:6 and its function code. -/
theorem syscallAndBreakFault : Obligations.SyscallAndBreakFault :=
  ⟨fun _ s hop hf => word_faults (.syscall _) rfl (encodeCode_of_funct hop hf) (fun _ => rfl) s,
    fun _ s hop hf => word_faults (.brk _) rfl (encodeCode_of_funct hop hf) (fun _ => rfl) s⟩

theorem wellFormed_invalidSpecial {f : BitVec 6} (h : unassignedFunct f) (bits : BitVec 20) :
    (Instr.invalidSpecial bits f).wellFormed = true := by
  rw [Instr.wellFormed, (unassignedFunct_iff f).1 h]
  rfl

/-- COP1 and COP3 are unassigned too, but have rows of their own. -/
theorem wellFormed_invalid {o : BitVec 6} (h : unassignedOpcode o) (h1 : o ≠ 0x11#6) (h3 : o ≠ 0x13#6)
    (bits : BitVec 26) : (Instr.invalid o bits).wellFormed = true := by
  have hlisted : listedOpcode o = false := (((unassignedOpcode_iff o).1 h).resolve_left h1).resolve_left h3
  rw [Instr.wellFormed, hlisted]
  rfl

/-- Settles O58: an unassigned code makes the invalid instruction of the word well-formed. -/
theorem invalidWordsFault : Obligations.InvalidWordsFault :=
  ⟨fun _ s hop hf => word_faults (.invalidSpecial _ _) (wellFormed_invalidSpecial hf _) (encodeCode_of_funct hop rfl) (fun _ => rfl) s,
    fun _ s ho h1 h3 => word_faults (.invalid _ _) (wellFormed_invalid ho h1 h3 _) (encodeJ_of_op rfl) (fun _ => rfl) s⟩

/-- Settles O59: each word is the encoding of its 26 bits under its own opcode. -/
theorem coprocessorOneAndThreeAreInvalid : Obligations.CoprocessorOneAndThreeAreInvalid :=
  ⟨fun _ s hop => word_faults (.cop1 _) rfl (encodeJ_of_op hop) (fun _ => rfl) s,
    fun _ s hop => word_faults (.cop3 _) rfl (encodeJ_of_op hop) (fun _ => rfl) s⟩

/-! ## COP0 (R191, R219) -/

theorem encode_cop0_of_op {w : Word} (hop : op w = 0x10#6) :
    encode (.cop0 (rs w) (rt w) (rd w) (w.extractLsb' 0 11)) = w :=
  fieldsCop0 w hop

/-- Settles O54: the round trip of the encoding, and the call each routed move makes. -/
theorem routedCoprocessorZeroMoves : Obligations.RoutedCoprocessorZeroMoves := by
  refine ⟨fun w hop => decode_of_encode rfl (encode_cop0_of_op hop), fun b d low s hon => ?moveFrom,
    fun b d low s hon => ?moveTo⟩
  case moveFrom =>
    refine ⟨_, execCop0_moveFrom hon b d low, fun r => ?_, rfl, ⟨rfl, rfl⟩, rfl, rfl, rfl, ⟨fun _ => rfl, rfl⟩, rfl⟩
    exact setReg_getReg (s.advance.callCop0 _) b r _
  case moveTo =>
    exact ⟨_, execCop0_moveTo hon b d low, fun _ => rfl, rfl, ⟨rfl, rfl⟩, rfl, rfl, rfl, ⟨fun _ => rfl, rfl⟩, rfl⟩

/-- Settles O55: a word that is not routed reaches the fault of its handler. -/
theorem otherCoprocessorZeroWordsFault : Obligations.OtherCoprocessorZeroWordsFault := by
  intro w s hop h
  have hunrouted : ¬ (s.params.cop0MovesEnabled = true ∧ (rs w = 0#5 ∨ rs w = 4#5)) := by
    rintro ⟨hon, hsub⟩
    obtain hoff | ⟨hfrom, hto⟩ := h
    · exact absurd hon (by simp [hoff])
    · exact hsub.elim hfrom hto
  have hexec := execCop0_fault hunrouted (rt w) (rd w) (w.extractLsb' 0 11)
  rw [encode_cop0_of_op hop] at hexec
  rw [exec, hexec]
  exact faultWith_faultEntry s _ _ w

end Sys2Proof.Proofs
end

section
/-! PROOFS. The branches (48_branch.md R181 to R188) and JALR (47_jump.md R174). Their words decode, opcode 1 by the selector of
`conditionalBranchSelector`. A branch is a jump or nothing but the advance, and one that links links only when it jumps; each
is proved once, for any condition, and an instruction adds only that its condition is the rule's. -/

namespace Sys2Proof.Proofs

open Sys2Proof.Machine Sys2Proof.Statements

/-- Settles O51: the round trip of the encoding, and the link its handler makes; the target is read before the link. -/
theorem jumpAndLinkRegister : Obligations.JumpAndLinkRegister :=
  ⟨specialWord_of_roundTrip (fun _ _ _ _ => rfl) fun a b d n => Laws.RoundTrip.jalr a b d n rfl,
    fun a _ d _ s => jumpAndLink_linkResult s d (s.getReg a)⟩

/-! ## The words of opcode 1 (30_encoding.md R68) -/

theorem not_linkValue_of_even : ∀ r : RegIdx, r.toNat % 2 = 0 → r ≠ 16#5 → ¬ r.toNat / 2 = 8 := by decide

theorem not_linkValue_of_odd : ∀ r : RegIdx, r.toNat % 2 = 1 → r ≠ 17#5 → ¬ r.toNat / 2 = 8 := by decide

section Words

variable {w : Word} (hop : op w = 0x01#6)
include hop

theorem decode_bltz (heven : (rt w).toNat % 2 = 0) (hne : rt w ≠ 16#5) : decode w = .bltz (rs w) (rt w) (imm w) := by
  rw [conditionalBranchSelector w hop, if_neg (not_linkValue_of_even _ heven hne),
    if_neg fun hodd => absurd (heven.symm.trans hodd) (by decide)]

theorem decode_bgez (hodd : (rt w).toNat % 2 = 1) (hne : rt w ≠ 17#5) : decode w = .bgez (rs w) (rt w) (imm w) := by
  rw [conditionalBranchSelector w hop, if_neg (not_linkValue_of_odd _ hodd hne), if_pos hodd]

theorem decode_bltzal (hrt : rt w = 16#5) : decode w = .bltzal (rs w) (imm w) := by
  rw [conditionalBranchSelector w hop, hrt]
  rfl

theorem decode_bgezal (hrt : rt w = 17#5) : decode w = .bgezal (rs w) (imm w) := by
  rw [conditionalBranchSelector w hop, hrt]
  rfl

end Words

/-! ## A handler that branches: `c` is the model's condition, `p` the rule's (R179, R180) -/

section Branches

variable {c : Bool} {p : Prop} (hc : c = true ↔ p) (k : Half) (s : State)

theorem advance_jumpResult (s : State) : JumpResult (.next s.advance) s (s.nextPC + 4#32) :=
  ⟨_, rfl, fun r => advance_getReg s r, rfl, rfl, rfl, rfl, rfl, ⟨fun _ => rfl, rfl⟩, ⟨rfl, rfl⟩⟩

include hc

theorem branchIf_jumpResult [Decidable p] :
    JumpResult (branchIf s c (boff k)) s (if p then branchTarget s k else s.nextPC + 4#32) := by
  rw [branchIf, boff_eq_mul_four, if_congr hc rfl rfl]
  split_ifs
  · exact jumpTo_jumpResult s (branchTarget s k)
  · exact advance_jumpResult s

theorem branchLinkIf_linkResult (hp : p) : LinkResult (branchLinkIf s c (boff k)) s 31#5 (branchTarget s k) := by
  rw [branchLinkIf, boff_eq_mul_four, if_pos (hc.2 hp)]
  exact jumpAndLink_linkResult s 31#5 (branchTarget s k)

theorem branchLinkIf_jumpResult (hp : ¬ p) : JumpResult (branchLinkIf s c (boff k)) s (s.nextPC + 4#32) := by
  rw [branchLinkIf, if_neg (mt hc.1 hp)]
  exact advance_jumpResult s

end Branches

/-- Settles O52: how the words decode, and the branch each handler makes on the rule's condition. -/
theorem branchesFollowTheirCondition : Obligations.BranchesFollowTheirCondition := by
  refine ⟨?beq, ?bne, ?blez, ?bgtz, fun w => decode_bltz, fun w => decode_bgez, fun a b k s => ?equal,
    fun a b k s => ?different, fun a b k s => ?lessEqualZero, fun a b k s => ?greaterZero, fun a b k s => ?lessZero,
    fun a b k s => ?greaterEqualZero⟩
  case beq => exact immediateWord_of_roundTrip (fun _ _ _ => rfl) fun a b k => Laws.RoundTrip.beq a b k rfl
  case bne => exact immediateWord_of_roundTrip (fun _ _ _ => rfl) fun a b k => Laws.RoundTrip.bne a b k rfl
  case blez => exact immediateWord_of_roundTrip (fun _ _ _ => rfl) fun a b k => Laws.RoundTrip.blez a b k rfl
  case bgtz => exact immediateWord_of_roundTrip (fun _ _ _ => rfl) fun a b k => Laws.RoundTrip.bgtz a b k rfl
  case equal => exact branchIf_jumpResult beq_iff_eq k s
  case different => exact branchIf_jumpResult bne_iff_ne k s
  case lessEqualZero => exact branchIf_jumpResult (leZero_iff _) k s
  case greaterZero => exact branchIf_jumpResult (gtZero_iff _) k s
  case lessZero => exact branchIf_jumpResult (ltZero_iff _) k s
  case greaterEqualZero => exact branchIf_jumpResult (geZero_iff _) k s

/-- Settles O53: how the words decode, and the branch each handler makes, taken and not taken; the condition is read from the
state at the handler, so from the old `x[31]`. -/
theorem branchesAndLinkOnlyWhenTaken : Obligations.BranchesAndLinkOnlyWhenTaken := by
  refine ⟨fun w => decode_bltzal, fun w => decode_bgezal, fun a k s h => ?lessTaken, fun a k s h => ?lessNotTaken,
    fun a k s h => ?greaterTaken, fun a k s h => ?greaterNotTaken⟩
  case lessTaken => exact branchLinkIf_linkResult (ltZero_iff _) k s h
  case lessNotTaken => exact branchLinkIf_jumpResult (ltZero_iff _) k s (not_lt.2 h)
  case greaterTaken => exact branchLinkIf_linkResult (geZero_iff _) k s h
  case greaterNotTaken => exact branchLinkIf_jumpResult (geZero_iff _) k s (not_le.2 h)

end Sys2Proof.Proofs
end

section
/-! PROOFS. Signed overflow (41_arithmetic.md R107), the closed table of faults (60_exceptions.md R220 to R222) and the invariant
(10_state.md R21, 20_memory.md R41). -/

namespace Sys2Proof.Proofs

open Sys2Proof.Machine Sys2Proof.Statements

/-! ## ADD, ADDI and SUB: wrap or trap (41_arithmetic.md R101, R103, R105, R107) -/

theorem not_fitsSigned_iff (v : Int) : ¬ fitsSigned v ↔ v < -2 ^ 31 ∨ 2 ^ 31 ≤ v := by
  unfold fitsSigned
  omega

theorem addOverflows_iff (a b : Word) : addOverflows a b = true ↔ ¬ fitsSigned (a.toInt + b.toInt) := by
  have h : addOverflows a b = a.saddOverflow b := (BitVec.saddOverflow_eq a b).symm
  rw [h, not_fitsSigned_iff, or_comm]
  simp [BitVec.saddOverflow]

theorem subOverflows_iff (a b : Word) : subOverflows a b = true ↔ ¬ fitsSigned (a.toInt - b.toInt) := by
  have h : subOverflows a b = a.ssubOverflow b := by
    rw [BitVec.ssubOverflow_eq, subOverflows]
    cases a.msb <;> cases b.msb <;> simp
  rw [h, not_fitsSigned_iff, or_comm]
  simp [BitVec.ssubOverflow]

theorem ofInt_toInt_add (a b : Word) : a + b = BitVec.ofInt 32 (a.toInt + b.toInt) := by
  rw [BitVec.ofInt_add, BitVec.ofInt_toInt, BitVec.ofInt_toInt]

theorem ofInt_toInt_sub (a b : Word) : a - b = BitVec.ofInt 32 (a.toInt - b.toInt) := by
  rw [Int.sub_eq_add_neg, BitVec.ofInt_add, BitVec.ofInt_neg, BitVec.ofInt_toInt, BitVec.ofInt_toInt,
    BitVec.sub_eq_add_neg]

/-- The outcome writes the exact result `v` into `d`, wrapped, or, where it does not fit and the parameter says so, faults. -/
structure WrapsOrTraps (o : Outcome) (s : State) (d : RegIdx) (v : Int) (w : Word) : Prop where
  wraps : s.params.trapOnOverflow = false ∨ fitsSigned v → o = writeReg s d (BitVec.ofInt 32 v)
  traps : s.params.trapOnOverflow = true → ¬ fitsSigned v → o = faultWith s .arithmeticOverflow .overflow w

theorem writeRegOrOverflow_wrapsOrTraps {o : Bool} {x : Word} {v : Int} (ho : o = true ↔ ¬ fitsSigned v)
    (hx : x = BitVec.ofInt 32 v) (s : State) (d : RegIdx) (w : Word) :
    WrapsOrTraps (writeRegOrOverflow s o d x w) s d v w := by
  subst hx
  constructor
  · rintro (hoff | hfits)
    · simp [writeRegOrOverflow, hoff]
    · simp [writeRegOrOverflow, show o = false by simpa using mt ho.1 (not_not.2 hfits)]
  · intro hon hv
    simp [writeRegOrOverflow, hon, ho.2 hv]

theorem exec_wrapsOrTraps {i : Instr} {s : State} {v : Int} (h : exactResult i s = some v) :
    ∃ d, destination i = some d ∧ WrapsOrTraps (exec i s) s d v (encode i) := by
  cases i with
  | add a b d n =>
    cases h
    exact ⟨d, rfl, writeRegOrOverflow_wrapsOrTraps (addOverflows_iff _ _) (ofInt_toInt_add _ _) s d _⟩
  | sub a b d n =>
    cases h
    exact ⟨d, rfl, writeRegOrOverflow_wrapsOrTraps (subOverflows_iff _ _) (ofInt_toInt_sub _ _) s d _⟩
  | addi a d k =>
    cases h
    rw [← simm_toInt]
    exact ⟨d, rfl, writeRegOrOverflow_wrapsOrTraps (addOverflows_iff _ _) (ofInt_toInt_add _ _) s d _⟩
  | _ => cases h

/-- Settles O36: the round trips of the three encodings, and the register or the fault of each handler. -/
theorem signedAddAndSubtractWrapOrTrap : Obligations.SignedAddAndSubtractWrapOrTrap := by
  refine ⟨?add, ?addi, ?sub, fun i s v hv => ?result⟩
  case add => exact specialWord_of_roundTrip (fun _ _ _ _ => rfl) fun a b d n => Laws.RoundTrip.add a b d n rfl
  case addi => exact immediateWord_of_roundTrip (fun _ _ _ => rfl) fun a d k => Laws.RoundTrip.addi a d k rfl
  case sub => exact specialWord_of_roundTrip (fun _ _ _ _ => rfl) fun a b d n => Laws.RoundTrip.sub a b d n rfl
  case result =>
    obtain ⟨d, hd, hres⟩ := exec_wrapsOrTraps hv
    refine ⟨fun h => ⟨d, hd, ?_⟩, fun ⟨hon, hbig⟩ => ?_⟩
    · rw [hres.wraps h]
      exact writeReg_regResult s d _
    · rw [hres.traps hon hbig]
      exact faultWith_faultEntry s _ _ _

/-! ## What an instruction latches (60_exceptions.md R220 to R222) -/

/-- The record of the fault that R220's table gives `i` in `s`, if it gives one. -/
def recordOf (i : Instr) (s : State) : Option FaultRecord :=
  (raises i s).map fun kc => ⟨kc.1, kc.2, s.pc, encode i⟩

section Latches

variable {s t : State} (hs : s.fault = none)
include hs

theorem execCop0_latches {sub rt rd : RegIdx} {low : BitVec 11} (h : execCop0 sub rt rd low s = .next t) :
    t.fault = recordOf (.cop0 sub rt rd low) s := by
  by_cases hr : s.params.cop0MovesEnabled = true ∧ (sub = 0#5 ∨ sub = 4#5)
  · have hnone : recordOf (.cop0 sub rt rd low) s = none := by simp only [recordOf, raises, if_pos hr, Option.map_none]
    rw [hnone]
    obtain ⟨hon, rfl | rfl⟩ := hr
    · rw [execCop0_moveFrom hon] at h
      cases h
      exact hs
    · rw [execCop0_moveTo hon] at h
      cases h
      exact hs
  · rw [execCop0_fault hr] at h
    cases h
    simp only [recordOf, raises, if_neg hr, Option.map_some, raise_fault]

theorem overflow_latches {i : Instr} {v : Int} (hv : exactResult i s = some v)
    (hraises : raises i s = if s.params.trapOnOverflow = true ∧ (v < -2 ^ 31 ∨ 2 ^ 31 ≤ v) then
      some (.arithmeticOverflow, .overflow) else none) (h : exec i s = .next t) : t.fault = recordOf i s := by
  obtain ⟨d, -, hres⟩ := exec_wrapsOrTraps hv
  rw [recordOf, hraises]
  split_ifs with htrap
  · rw [hres.traps htrap.1 ((not_fitsSigned_iff v).2 htrap.2)] at h
    cases h
    rfl
  · have hwraps : s.params.trapOnOverflow = false ∨ fitsSigned v := by
      by_contra hn
      rw [not_or, Bool.not_eq_false, not_fitsSigned_iff] at hn
      exact htrap hn
    rw [hres.wraps hwraps] at h
    exact (writeReg_keepsLatch h).trans hs

/-- From a core not halted, an instruction that completes leaves in the latch what the table says, or nothing. -/
theorem exec_latches {i : Instr} (h : exec i s = .next t) : t.fault = recordOf i s := by
  cases i with
  | sll | srl | sra | sllv | srlv | srav => exact (writeReg_keepsLatch h).trans hs
  | mfhi | mflo => exact (writeReg_keepsLatch h).trans hs
  | addu | subu | and | or | xor | nor | slt | sltu => exact (writeReg_keepsLatch h).trans hs
  | addiu | slti | sltiu | andi | ori | xori | lui => exact (writeReg_keepsLatch h).trans hs
  | add | sub | addi => exact overflow_latches hs rfl rfl h
  | mthi | mtlo | mult | multu | div | divu => exact (writeHiLo_keepsLatch h).trans hs
  | lb | lbu | lh | lhu | lw => exact (loadInto_keepsLatch h).trans hs
  | sb | sh | sw => exact (storeTo_keepsLatch h).trans hs
  | j | jr => exact (jumpTo_keepsLatch h).trans hs
  | jal | jalr => exact (jumpAndLink_keepsLatch h).trans hs
  | beq | bne | blez | bgtz | bltz | bgez => exact (branchIf_keepsLatch h).trans hs
  | bltzal | bgezal => exact (branchLinkIf_keepsLatch h).trans hs
  | cop0 => exact execCop0_latches hs h
  | syscall | brk | cop1 | cop2 | cop3 | lwl | lwr | swl | swr => cases h; rfl
  | lwc0 | lwc1 | lwc2 | lwc3 | swc0 | swc1 | swc2 | swc3 => cases h; rfl
  | invalidSpecial | invalid => cases h; rfl

end Latches

/-! ## What a step latches -/

theorem encode_instrAtPC (s : State) : encode (instrAtPC s) = wordAtPC s := encode_decode (wordAtPC s)

/-- The fetch leaves alone what the table reads. -/
theorem recordOf_fetched (i : Instr) (s : State) : recordOf i s.fetched = recordOf i s := rfl

/-- Settles O27: what the instruction at `pc` latches, its encoding being the word fetched. -/
theorem faultLatchFollowsTheTable : Obligations.FaultLatchFollowsTheTable := by
  intro s t h
  have ht := exec_latches (s := s.fetched) (step_next h).1 (exec_instrAtPC_of_step h)
  rw [ht, recordOf_fetched, recordOf, encode_instrAtPC]

/-- A step that leaves a record has raised the fault of the instruction at `pc` from the state of the fetch. -/
theorem raise_of_step {s t : State} {r : FaultRecord} (h : step s = .next t) (hr : t.fault = some r) :
    ∃ k c, faultOf (instrAtPC s) = some (k, c) ∧ t = s.fetched.raise k c (encode (instrAtPC s)) := by
  obtain hkept | hraised := exec_latchedBy (exec_instrAtPC_of_step h)
  · rw [hkept, fetched_fault, (step_next h).1] at hr
    cases hr
  · exact hraised

/-- Settles O28: the state that raising the fault leaves, from the state of the fetch. -/
theorem faultingStepChangesNothingElse : Obligations.FaultingStepChangesNothingElse := by
  intro s t r h hr
  obtain ⟨k, c, -, rfl⟩ := raise_of_step h hr
  exact ⟨⟨rfl, rfl⟩, fun _ => rfl, rfl, rfl, rfl, received_call s _, ⟨rfl, rfl⟩, rfl⟩

/-! ## The invariant -/

/-- Whatever an instruction does keeps memory canonical. -/
theorem effect_wf {s t : State} (h : Effect s t) (hw : s.mem.wf = true) : t.mem.wf = true := by
  cases h with
  | store c m hm => exact hm.wf hw
  | _ => exact hw

/-- Whatever an instruction does leaves the stored register 0 alone. -/
theorem effect_gpr_zero {s t : State} (h : Effect s t) : t.gpr[0] = s.gpr[0] := by
  cases h with
  | reg d v | load c d v | cop0Get d v => exact writeGpr_gpr_zero _ _ _
  | link d a => exact writeGpr_gpr_zero _ _ _
  | _ => rfl

/-- A step never latches a record that is not one of its word. -/
theorem ofItsWord_of_step {s t : State} {r : FaultRecord} (h : step s = .next t) (hr : t.fault = some r) :
    r.ofItsWord = true := by
  obtain ⟨k, c, hkc, rfl⟩ := raise_of_step h hr
  cases hr
  have hback : decode (encode (instrAtPC s)) = instrAtPC s := decode_encode _ (wellFormed_decode (wordAtPC s))
  exact beq_iff_eq.2 ((congrArg faultOf hback).trans hkc)

/-- Settles O19: memory and the stored register 0 by what an instruction can do, the latch by the fault it raises. -/
theorem everyStepKeepsTheInvariant : Obligations.EveryStepKeepsTheInvariant := by
  intro s t ⟨hw, h0, _⟩ h
  have he := exec_effect (exec_instrAtPC_of_step h)
  exact ⟨effect_wf he hw, (effect_gpr_zero he).trans h0, fun r => ofItsWord_of_step h⟩

end Sys2Proof.Proofs
end

section
/-! PROOFS. What the accessor performs and refuses, and memory after a store (20_memory.md R43, R45, R54, R57). `performs`, as
the statements write it, is whether the model's operation has an answer; a load or a store then stops exactly where it has
none, and every other instruction answers a next state. -/

namespace Sys2Proof.Proofs

open Sys2Proof.Machine Sys2Proof.Statements

/-! ## `performs` is whether the accessor answers -/

theorem acceptsHalf_eq (s : State) (a : Word) :
    s.acceptsHalf a = (s.params.misalignedPolicy == .bytewise || a.toNat % 2 == 0) := by
  unfold State.acceptsHalf
  rw [Bool.eq_iff_iff]
  cases s.params.misalignedPolicy <;> simp [alignedHalf_iff]

theorem acceptsWord_eq (s : State) (a : Word) :
    s.acceptsWord a = (s.params.misalignedPolicy == .bytewise || a.toNat % 4 == 0) := by
  unfold State.acceptsWord
  rw [Bool.eq_iff_iff]
  cases s.params.misalignedPolicy <;> simp [alignedWord_iff]

theorem isSome_ite_some {α : Type} (c : Bool) (x : α) : (if c then some x else none).isSome = c := by
  cases c <;> rfl

theorem performs_read8 (s : State) (a : Word) : performs s (.read8 a) = (s.read8 a).isSome := by
  unfold performs
  split
  case h_1 hm => simp [read8_flatLE hm, width, Nat.mod_one]
  case h_2 => rfl

theorem performs_read16 (s : State) (a : Word) : performs s (.read16 a) = (s.read16 a).isSome := by
  unfold performs
  split
  case h_1 hm =>
    rw [read16_flatLE hm, isSome_ite_some, acceptsHalf_eq]
    rfl
  case h_2 => rfl

theorem performs_read32 (s : State) (a : Word) : performs s (.read32 a) = (s.read32 a).isSome := by
  unfold performs
  split
  case h_1 hm =>
    rw [read32_flatLE hm, isSome_ite_some, acceptsWord_eq]
    rfl
  case h_2 => rfl

theorem performs_write8 (s : State) (a : Word) (v : Byte) : performs s (.write8 a v) = (s.write8 a v).isSome := by
  unfold performs
  split
  case h_1 hm => simp [write8_flatLE hm, width, Nat.mod_one]
  case h_2 => rfl

theorem performs_write16 (s : State) (a : Word) (v : Half) : performs s (.write16 a v) = (s.write16 a v).isSome := by
  unfold performs
  split
  case h_1 hm =>
    rw [write16_flatLE hm, isSome_ite_some, acceptsHalf_eq]
    rfl
  case h_2 => rfl

theorem performs_write32 (s : State) (a v : Word) : performs s (.write32 a v) = (s.write32 a v).isSome := by
  unfold performs
  split
  case h_1 hm =>
    rw [write32_flatLE hm, isSome_ite_some, acceptsWord_eq]
    rfl
  case h_2 => rfl

/-- A byte or halfword that a load extends is answered exactly when the narrow read is. -/
theorem performs_extended {α : Type} {s : State} {c : Config.MemCall} {got : Option α} (f : α → Word)
    (h : performs s c = got.isSome) : performs s c = (got.map f).isSome := by
  rw [h, Option.isSome_map]

/-! ## A load or a store stops exactly where the accessor refuses (45_load_store.md R155) -/

section Shapes

variable {s : State} {c : Config.MemCall} (a : Word)

theorem loadInto_refused_iff {got : Option Word} (d : RegIdx) (h : performs s c = got.isSome) :
    performs s c = false ↔ loadInto s a c d got = .fault (.dataRefused a) := by
  rw [h]
  cases got <;> simp [loadInto]

theorem storeTo_refused_iff {got : Option Memory} (h : performs s c = got.isSome) :
    performs s c = false ↔ storeTo s a c got = .fault (.dataRefused a) := by
  rw [h]
  cases got <;> simp [storeTo]

end Shapes

/-- Settles O45: the answer each of the eight handlers waits for. -/
theorem refusedDataAccessesStop : Obligations.RefusedDataAccessesStop := by
  intro s a b k
  refine ⟨?lb, ?lbu, ?lh, ?lhu, ?lw, ?sb, ?sh, ?sw⟩
  case lb => exact loadInto_refused_iff _ b (performs_extended _ (performs_read8 s _))
  case lbu => exact loadInto_refused_iff _ b (performs_extended _ (performs_read8 s _))
  case lh => exact loadInto_refused_iff _ b (performs_extended _ (performs_read16 s _))
  case lhu => exact loadInto_refused_iff _ b (performs_extended _ (performs_read16 s _))
  case lw => exact loadInto_refused_iff _ b (performs_read32 s _)
  case sb => exact storeTo_refused_iff _ (performs_write8 s _ _)
  case sh => exact storeTo_refused_iff _ (performs_write16 s _ _)
  case sw => exact storeTo_refused_iff _ (performs_write32 s _ _)

/-! ## Every other instruction answers (40_step_dispatch.md R86) -/

/-- The outcome stops at the address refused, or, where none is, is a next state. -/
structure Answers (o : Outcome) (refused : Option Word) : Prop where
  stops : ∀ a, refused = some a → o = .fault (.dataRefused a)
  completes : refused = none → ∃ t, o = .next t

theorem Answers.of_next {o : Outcome} (h : ∃ t, o = .next t) : Answers o none :=
  ⟨nofun, fun _ => h⟩

theorem KeepsLatchAndMemory.answers {o : Outcome} {s : State} (h : KeepsLatchAndMemory o s) : Answers o none :=
  .of_next (h.imp fun _ ht => ht.1)

section Shapes

variable {i : Instr} {s : State} {c : Config.MemCall}

theorem refusedAccess_of_access (hi : dataAccess i s = some c) :
    refusedAccess i s = if performs s c then none else some (address c) := by
  rw [refusedAccess, hi]

theorem loadInto_answers {got : Option Word} (d : RegIdx) (hi : dataAccess i s = some c)
    (h : performs s c = got.isSome) : Answers (loadInto s (address c) c d got) (refusedAccess i s) := by
  rw [refusedAccess_of_access hi, h]
  cases got with
  | none => exact ⟨fun a ha => by cases ha; rfl, nofun⟩
  | some v => exact .of_next ⟨_, rfl⟩

theorem storeTo_answers {got : Option Memory} (hi : dataAccess i s = some c) (h : performs s c = got.isSome) :
    Answers (storeTo s (address c) c got) (refusedAccess i s) := by
  rw [refusedAccess_of_access hi, h]
  cases got with
  | none => exact ⟨fun a ha => by cases ha; rfl, nofun⟩
  | some m => exact .of_next ⟨_, rfl⟩

theorem writeRegOrOverflow_answers (o : Bool) (d : RegIdx) (v w : Word) :
    Answers (writeRegOrOverflow s o d v w) none := by
  unfold writeRegOrOverflow
  split <;> exact .of_next ⟨_, rfl⟩

theorem execCop0_answers (sub rt rd : RegIdx) (low : BitVec 11) : Answers (execCop0 sub rt rd low s) none := by
  unfold execCop0
  split
  · exact .of_next ⟨_, rfl⟩
  · split <;> exact .of_next ⟨_, rfl⟩

end Shapes

/-- An instruction stops at the address of its data access if the accessor refuses it, and else completes. -/
theorem exec_answers (i : Instr) (s : State) : Answers (exec i s) (refusedAccess i s) := by
  cases i with
  | sll | srl | sra | sllv | srlv | srav => exact .of_next ⟨_, rfl⟩
  | mfhi | mflo => exact .of_next ⟨_, rfl⟩
  | addu | subu | and | or | xor | nor | slt | sltu => exact .of_next ⟨_, rfl⟩
  | addiu | slti | sltiu | andi | ori | xori | lui => exact .of_next ⟨_, rfl⟩
  | add | sub | addi => exact writeRegOrOverflow_answers _ _ _ _
  | mthi | mtlo | mult | multu | div | divu => exact .of_next ⟨_, rfl⟩
  | lb | lbu => exact loadInto_answers _ rfl (performs_extended _ (performs_read8 s _))
  | lh | lhu => exact loadInto_answers _ rfl (performs_extended _ (performs_read16 s _))
  | lw => exact loadInto_answers _ rfl (performs_read32 s _)
  | sb => exact storeTo_answers rfl (performs_write8 s _ _)
  | sh => exact storeTo_answers rfl (performs_write16 s _ _)
  | sw => exact storeTo_answers rfl (performs_write32 s _ _)
  | j | jr => exact .of_next ⟨_, rfl⟩
  | jal | jalr => exact .of_next ⟨_, rfl⟩
  | beq | bne | blez | bgtz | bltz | bgez => exact (branchIf_keepsLatchAndMemory s _ _).answers
  | bltzal | bgezal => exact (branchLinkIf_keepsLatchAndMemory s _ _).answers
  | cop0 => exact execCop0_answers _ _ _ _
  | syscall | brk | cop1 | cop2 | cop3 | lwl | lwr | swl | swr => exact .of_next ⟨_, rfl⟩
  | lwc0 | lwc1 | lwc2 | lwc3 | swc0 | swc1 | swc2 | swc3 => exact .of_next ⟨_, rfl⟩
  | invalidSpecial | invalid => exact .of_next ⟨_, rfl⟩

theorem step_of_refused_fetch {s : State} (hf : s.fault = none) (hw : s.fetch = none) :
    step s = .fault (.fetchRefused s.pc) := by
  unfold step
  simp only [hf, hw]

/-- Settles O14: the fetch, and then the answer of the instruction at `pc` from the state of the fetch. -/
theorem stepAnswersUnlessTheAccessorRefuses : Obligations.StepAnswersUnlessTheAccessorRefuses := by
  intro s hf
  have hperforms : performs s (.read32 s.pc) = s.fetch.isSome := performs_read32 s s.pc
  have hanswers := exec_answers (instrAtPC s) s.fetched
  refine ⟨fun h => ?_, fun h a ha => ?_, fun h hnone => ?_⟩ <;> rw [hperforms] at h
  · exact step_of_refused_fetch hf (Option.isNone_iff_eq_none.1 (Option.isSome_eq_false_iff.1 h))
  · rw [step_eq_exec_instrAtPC hf (Option.isSome_iff_ne_none.1 h)]
    exact hanswers.stops a ha
  · rw [step_eq_exec_instrAtPC hf (Option.isSome_iff_ne_none.1 h)]
    exact hanswers.completes hnone

/-! ## The parts of a wide write (20_memory.md R43) -/

theorem low_half_of_bytes (v : Word) : v.extractLsb' 8 8 ++ v.extractLsb' 0 8 = v.extractLsb' 0 16 :=
  BitVec.extractLsb'_append_extractLsb'_eq_extractLsb' rfl

theorem high_half_of_bytes (v : Word) : v.extractLsb' 24 8 ++ v.extractLsb' 16 8 = v.extractLsb' 16 16 :=
  BitVec.extractLsb'_append_extractLsb'_eq_extractLsb' rfl

theorem halfAt_writeWord {m : Memory} (h : m.wf = true) (a v : Word) :
    (m.writeWord a v).halfAt a = v.extractLsb' 0 16 ∧ (m.writeWord a v).halfAt (a + 2#32) = v.extractLsb' 16 16 := by
  obtain ⟨h0, h1, h2, h3⟩ := bytes_of_writeWord h a v
  have hthree : a + 2#32 + 1#32 = a + 3#32 := by rw [BitVec.add_assoc]; rfl
  unfold Memory.halfAt
  rw [h0, h1, hthree, h2, h3]
  exact ⟨low_half_of_bytes v, high_half_of_bytes v⟩

theorem add_two_even {a : Word} (h : a.toNat % 4 = 0) : (a + 2#32).toNat % 2 = 0 := by
  bv_omega

/-- Settles O9: the bytes and the halves of the write, where `FlatLE` performs each aligned access. -/
theorem mixedWidthViewOfMemory : Obligations.MixedWidthViewOfMemory := by
  intro s a hf hw
  refine ⟨fun ha v => ?word, fun ha v => ?half, fun v => ?byte⟩
  case word =>
    obtain ⟨h0, h1, h2, h3⟩ := bytes_of_writeWord hw a v
    obtain ⟨hlow, hhigh⟩ := halfAt_writeWord hw a v
    have hread8 (x : Word) := read8_flatLE (s := s.setMem (s.mem.writeWord a v)) hf x
    have hread16 (x : Word) (hx : x.toNat % 2 = 0) :=
      read16_of_accepted (s := s.setMem (s.mem.writeWord a v)) (a := x) ⟨hf, .inr hx⟩
    refine ⟨_, write32_of_accepted ⟨hf, .inr ha⟩ v, ?_⟩
    rw [hread8, hread8, hread8, hread8, hread16 a (by omega), hread16 _ (add_two_even ha), setMem_mem, h0, h1, h2, h3,
      hlow, hhigh]
    simp
  case half =>
    have hread8 (x : Word) := read8_flatLE (s := s.setMem (s.mem.writeHalf a v)) hf x
    refine ⟨_, write16_of_accepted ⟨hf, .inr ha⟩ v, ?_, ?_, fun x h0 h1 => ?_⟩
    · rw [hread8, setMem_mem, byteAt_writeHalf hw, if_neg (addr_ne_self a (by decide)).symm, if_pos rfl]
    · rw [hread8, setMem_mem, byteAt_writeHalf hw, if_pos rfl]
    · rw [byteAt_writeHalf hw, if_neg h1, if_neg h0]
  case byte =>
    refine ⟨_, write8_flatLE hf a v, fun x hx => ?_⟩
    rw [byteAt_writeByte hw, if_neg hx]

/-! ## The fetch after a store (20_memory.md R54) -/

/-- On `FlatLE` a 32-bit read gives the word just written at every address where it performs the write. -/
theorem read32_after_write32_flatLE {s : State} {a v : Word} {m : Memory} (hf : onFlatLE s) (hw : s.mem.wf = true)
    (h : s.write32 a v = some m) : ((s.callMem (.write32 a v)).setMem m).read32 a = some v := by
  rw [write32_flatLE hf] at h
  rw [read32_flatLE (s := (s.callMem _).setMem m) hf, setMem_acceptsWord, callMem_acceptsWord]
  split_ifs at h ⊢
  · cases h
    rw [setMem_mem, wordAt_writeWord hw]

/-- A read of the same address directly after SW's write gives the word, whatever the accessor. -/
theorem read32_after_sw {s t : State} {a b : RegIdx} {k : Half} (hw : s.mem.wf = true)
    (hacc : onFlatLE s ∨ (ea s a k).toNat % 4 = 0) (h : exec (.sw a b k) s = .next t) :
    t.read32 (ea s a k) = some (s.getReg b) := by
  change storeTo s (ea s a k) (.write32 (ea s a k) (s.getReg b)) (s.write32 (ea s a k) (s.getReg b)) = .next t at h
  cases hm : s.write32 (ea s a k) (s.getReg b) with
  | none =>
    rw [hm] at h
    cases h
  | some m =>
    rw [hm] at h
    cases h
    obtain hf | ha := hacc
    · exact read32_after_write32_flatLE (s := s.advance) hf hw hm
    · exact read32_after_write32 (s := s.advance) hw ha hm

/-- Settles O10: the fetch is the 32-bit read at `pc`. -/
theorem nextFetchSeesTheStore : Obligations.NextFetchSeesTheStore := by
  intro s t a b k hw hacc h
  have hread := read32_after_sw hw hacc h
  exact ⟨fun hpc => by rw [State.fetch, hpc, hread], hread⟩

end Sys2Proof.Proofs
end

section
/-! PROOFS. The step's own laws (40_step_dispatch.md), the alignment of the pair (10_state.md R28), and Run and the host's moves
(70_reset_and_hazards.md). Run is read through two equations, halted or not, and the invariant of every reachable state is the
step's invariant carried along runs, with the few fields the host's moves write. -/

namespace Sys2Proof.Proofs

open Sys2Proof.Machine Sys2Proof.Statements

/-! ## One step -/

/-- Settles O11: the fetch and the dispatch of a step, and the round trip of a well-formed instruction. -/
theorem stepRunsTheDecodedInstruction : Obligations.StepRunsTheDecodedInstruction := by
  refine ⟨fun s w => step_of_fetch, fun s i hf hi hw => ?_, fun s => read32_of_accepted, fun s => ?_⟩
  · rw [step_of_fetch hf hw, decode_encode i hi]
  · rw [← received_call]
    rfl

theorem withFetchWord_fault (s : State) (nbits w : Nat) : (s.withFetchWord nbits w).fault = s.fault := by
  unfold State.withFetchWord
  split <;> rfl

/-- On `FlatLE` the word placed is fetched wherever the fetch is performed, a misaligned `pc` under `bytewise` included. -/
theorem fetch_withFetchWord_of_accepted {s : State} (hw : s.mem.wf = true) (h : accepted s 4 s.pc) (nbits w : Nat) :
    (s.withFetchWord nbits w).fetch = some (tableWord nbits w) := by
  obtain ⟨hf, -⟩ := id h
  have hplaced : s.withFetchWord nbits w = s.setMem (s.mem.writeWord s.pc (tableWord nbits w)) := by
    unfold State.withFetchWord
    rw [hf]
  rw [hplaced, fetch_of_accepts (by exact hf) (by exact acceptsWord_of_accepted h), setMem_mem, setMem_pc,
    wordAt_writeWord hw]

/-- Settles O12: the word placed is the one fetched, and the table's bytes decode to its instruction. -/
theorem withFetchWordRunsTheWord : Obligations.WithFetchWordRunsTheWord := by
  intro s nbits w hf hw hpc
  have hfetch : (s.withFetchWord nbits w).fetch = some (tableWord nbits w) :=
    hpc.elim (fun h => fetch_withFetchWord_of_accepted hw h nbits w)
      fun h => fetch_withFetchWord hw ((alignedWord_iff _).2 h) nbits w
  exact ⟨step_of_fetch ((withFetchWord_fault s nbits w).trans hf) hfetch, decodeTableWord_eq nbits w⟩

/-- Settles O18: the fetch overwrites the field, and nothing before it reads it. -/
theorem stepIgnoresEarlierPortCalls : Obligations.StepIgnoresEarlierPortCalls :=
  fun _ _ => rfl

/-! ## The pair stays aligned (10_state.md R28) -/

theorem add_four_aligned {a : Word} (h : a.toNat % 4 = 0) : (a + 4#32).toNat % 4 = 0 := by
  bv_omega

theorem branchTarget_aligned {s : State} (h : s.nextPC.toNat % 4 = 0) (k : Half) : (branchTarget s k).toNat % 4 = 0 := by
  rw [branchTarget]
  bv_omega

theorem jumpTarget_aligned (s : State) (x : BitVec 26) : (jumpTarget s x).toNat % 4 = 0 := by
  rw [jumpTarget, toNat_append_add]
  exact Nat.mul_mod_left _ _

theorem branch_aligned {s : State} (h : s.nextPC.toNat % 4 = 0) {p : Prop} [Decidable p] {k : Half} {T : Word}
    (hT : (if p then some (branchTarget s k) else none) = some T) : T.toNat % 4 = 0 := by
  split_ifs at hT
  cases hT
  exact branchTarget_aligned h k

/-- Every target is a multiple of 4, but that of a JR or JALR through a register that holds none. -/
theorem transferTarget_aligned {i : Instr} {s : State} {T : Word} (h : s.nextPC.toNat % 4 = 0)
    (hreg : ∀ a b d n, i = .jr a b d n ∨ i = .jalr a b d n → (s.getReg a).toNat % 4 = 0)
    (hT : transferTarget i s = some T) : T.toNat % 4 = 0 := by
  cases i with
  | j x | jal x =>
    cases hT
    exact jumpTarget_aligned s x
  | jr a b d n =>
    cases hT
    exact hreg a b d n (.inl rfl)
  | jalr a b d n =>
    cases hT
    exact hreg a b d n (.inr rfl)
  | beq | bne | blez | bgtz | bltz | bgez | bltzal | bgezal => exact branch_aligned h hT
  | _ => cases hT

/-- Settles O22: the pair's law, and the target of the instruction at `pc` if it transfers control. -/
theorem pairStaysAligned : Obligations.PairStaysAligned := by
  intro s t _ hnext h hreg
  obtain ⟨hpc, hnextPC⟩ := everyStepAdvancesThePair s t h
  rw [hpc, hnextPC]
  refine ⟨hnext, ?_⟩
  cases hT : transferTarget (instrAtPC s) s with
  | none =>
    rw [followingPC_of_no_transfer hT]
    exact add_four_aligned hnext
  | some T =>
    rw [followingPC_of_transfer hT]
    exact transferTarget_aligned hnext hreg hT

/-! ## Run (70_reset_and_hazards.md R202) -/

theorem step_of_halted {s : State} {r : FaultRecord} (h : s.fault = some r) : step s = .fault (.halted r) := by
  unfold step
  simp only [h]

theorem run_of_halted {s : State} {r : FaultRecord} (h : s.fault = some r) (n : Nat) : run n s = .next s := by
  cases n with
  | zero => rfl
  | succ n => simp only [run, h]

/-- The outcome of `f` from the state that an outcome leaves, or the stop it is. -/
def andThen (o : Outcome) (f : State → Outcome) : Outcome :=
  match o with
  | .next t => f t
  | .fault r => .fault r
  | .refused r => .refused r

theorem run_succ {s : State} (h : s.fault = none) (n : Nat) : run (n + 1) s = andThen (step s) (run n) := by
  simp only [run, h]
  rfl

theorem coreRun_succ (n : Nat) (s : State) :
    Host.Core.run core (n + 1) s = andThen (step s) (Host.Core.run core n) := by
  unfold andThen
  cases h : step s <;> simp [Host.Core.run, Sys2Proof.core, h]

/-- Settles O13, by the step and the run of a halted core. -/
theorem haltedCoreHasNoStep : Obligations.HaltedCoreHasNoStep :=
  fun _ _ h => ⟨step_of_halted h, run_of_halted h⟩

theorem run_add (a b : Nat) (s : State) : run (a + b) s = andThen (run a s) (run b) := by
  induction a generalizing s with
  | zero => rw [Nat.zero_add]; rfl
  | succ a ih =>
    cases h : s.fault with
    | some r =>
      rw [run_of_halted h, run_of_halted h]
      exact (run_of_halted h b).symm
    | none =>
      rw [Nat.succ_add, run_succ h, run_succ h]
      cases step s with
      | next t => exact ih t
      | fault r => rfl
      | refused r => rfl

/-- Settles O29, by induction on the first run. -/
theorem runsAddUp : Obligations.RunsAddUp := run_add

theorem run_of_coreRun {n : Nat} {s t : State} (h : Host.Core.run core n s = .next t) : run n s = .next t := by
  induction n generalizing s with
  | zero => exact h
  | succ n ih =>
    rw [coreRun_succ] at h
    cases hstep : step s with
    | next u =>
      rw [run_succ (step_next hstep).1, hstep]
      rw [hstep] at h
      exact ih h
    | fault r => rw [hstep] at h; cases h
    | refused r => rw [hstep] at h; cases h

theorem coreRun_of_run {n : Nat} {s t : State} (h : run n s = .next t) (hf : t.fault = none) :
    Host.Core.run core n s = .next t := by
  induction n generalizing s with
  | zero => exact h
  | succ n ih =>
    cases hs : s.fault with
    | some r =>
      rw [run_of_halted hs] at h
      cases h
      cases hs.symm.trans hf
    | none =>
      rw [run_succ hs] at h
      rw [coreRun_succ]
      cases hstep : step s with
      | next u => rw [hstep] at h; exact ih h
      | fault r => rw [hstep] at h; cases h
      | refused r => rw [hstep] at h; cases h

/-- Settles O30, by induction on the number of steps. -/
theorem runPerformsItsSteps : Obligations.RunPerformsItsSteps :=
  fun _ _ _ => ⟨run_of_coreRun, coreRun_of_run⟩

/-! ## The host's moves (70_reset_and_hazards.md R203 to R210, R250 to R253) -/

/-- Settles O31: the pair's law at the new pair. -/
theorem setProgramCounterCancelsATransfer : Obligations.SetProgramCounterCancelsATransfer :=
  fun _ _ => ⟨rfl, fun _ h => (everyStepAdvancesThePair _ _ h).1⟩

/-- Settles O32, field by field. -/
theorem resetLeavesZeroes : Obligations.ResetLeavesZeroes :=
  fun s => ⟨hostReset_getReg s, rfl, rfl, rfl, rfl, rfl, reset_eq_hostReset⟩

/-- The word at an address of `FlatLE` is the same in a state with the same memory and parameters. -/
theorem instrAtPC_congr {s t : State} (hf : onFlatLE s) (hpc : t.pc = s.pc) (hmem : t.mem = s.mem)
    (hparams : t.params = s.params) : instrAtPC t = instrAtPC s := by
  have hfetch : t.fetch = s.fetch := by
    have hft : onFlatLE t := by rwa [onFlatLE, hparams]
    rw [State.fetch, State.fetch, hpc, read32_flatLE hf, read32_flatLE hft, hmem, acceptsWord_eq, acceptsWord_eq, hparams]
  rw [instrAtPC, instrAtPC, wordAtPC, wordAtPC, hfetch]

/-- A step that answers a next state is the one of the instruction at `pc`. -/
theorem step_eq_exec_of_next {s t : State} (h : step s = .next t) : step s = exec (instrAtPC s) s.fetched :=
  h.trans (exec_instrAtPC_of_step h).symm

/-- Settles O33: the pair's law at both steps, from the pair 0, 0 that Reset leaves; the first step keeps memory unless it
stores. -/
theorem resetExecutesAddressZeroTwice : Obligations.ResetExecutesAddressZeroTwice := by
  intro s t u hnone ht hu
  obtain ⟨htpc, htnext⟩ := everyStepAdvancesThePair _ t ht
  obtain ⟨hupc, hunext⟩ := everyStepAdvancesThePair t u hu
  rw [followingPC_of_no_transfer hnone] at htnext
  obtain ⟨hparams, hmem⟩ := onlyStoresChangeMemory.1 _ t ht
  refine ⟨rfl, step_eq_exec_of_next ht, htpc, htnext, fun hf hstore => ?_, step_eq_exec_of_next hu, hupc.trans htnext,
    fun hslot => ?_⟩
  · exact instrAtPC_congr (s := hostReset s) hf htpc (hmem (.inl hstore)) hparams
  · rw [hunext, followingPC_of_no_transfer hslot, htnext]
    rfl

/-! ## The invariant, on every state the host can bring a core to -/

/-- Settles O20: nothing is listed, every register is zero and the latch is empty. -/
theorem resetMeetsTheInvariant : Obligations.ResetMeetsTheInvariant :=
  ⟨rfl, rfl, nofun⟩

theorem run_keepsInv {n : Nat} {s t : State} (hs : s.Inv) (h : run n s = .next t) : t.Inv := by
  induction n generalizing s with
  | zero =>
    cases h
    exact hs
  | succ n ih =>
    cases hf : s.fault with
    | some r =>
      rw [run_of_halted hf] at h
      cases h
      exact hs
    | none =>
      rw [run_succ hf] at h
      cases hstep : step s with
      | next u =>
        rw [hstep] at h
        exact ih (everyStepKeepsTheInvariant s u hs hstep) h
      | fault r => rw [hstep] at h; cases h
      | refused r => rw [hstep] at h; cases h

theorem hostReset_inv {s : State} (hs : s.Inv) : (hostReset s).Inv :=
  ⟨hs.1, rfl, nofun⟩

theorem hostSetRegister_inv {s : State} (hs : s.Inv) (i : RegIdx) (v : Word) : (hostSetRegister i v s).Inv :=
  ⟨hs.1, (writeGpr_gpr_zero s.gpr i v).trans hs.2.1, hs.2.2⟩

theorem hostWriteByte_inv {s : State} (hs : s.Inv) (a : Word) (v : Byte) : (hostWriteByte a v s).Inv := by
  obtain ⟨hw, h0, hfault⟩ := hs
  unfold hostWriteByte
  split
  · exact ⟨wf_writeByte a v hw, h0, hfault⟩
  · exact ⟨hw, h0, hfault⟩

theorem applyHostOp_keepsInv {o : HostOp} {s t : State} (hs : s.Inv) (h : applyHostOp o s = .next t) : t.Inv := by
  cases o with
  | run n => exact run_keepsInv hs h
  | reset => cases h; exact hostReset_inv hs
  | setRegister i v => cases h; exact hostSetRegister_inv hs i v
  | writeByte a v => cases h; exact hostWriteByte_inv hs a v
  | setProgramCounter | setHi | setLo => cases h; exact hs

/-- Settles O21, by induction on the host's moves. -/
theorem reachableStatesMeetTheInvariant : Obligations.ReachableStatesMeetTheInvariant := by
  intro s h
  induction h with
  | configured p m hm => exact ⟨hm, rfl, nofun⟩
  | host s t o _ ho ih => exact applyHostOp_keepsInv ih ho

end Sys2Proof.Proofs
end

section
/-! PROOFS. DIV and DIVU (46_muldiv.md R163, R164, section 3). Off the two corners the values the handlers write are the
exact quotient and remainder, which 32 bits hold: for DIV because only -2^31 / -1 leaves the range. -/

namespace Sys2Proof.Proofs

open Sys2Proof.Machine Sys2Proof.Statements

/-! ## The corners (decisions D3 to D6) -/

theorem toInt_eq_zero_iff (b : Word) : b.toInt = 0 ↔ b = 0#32 := by
  simpa using BitVec.toInt_inj (x := b) (y := 0#32)

theorem toNat_eq_zero_iff (b : Word) : b.toNat = 0 ↔ b = 0#32 :=
  BitVec.toNat_inj (y := 0#32)

theorem div_by_zero (a : Word) :
    divRemainder a 0#32 = a ∧ divQuotient a 0#32 = if 0 ≤ a.toInt then 0xFFFFFFFF#32 else 1#32 :=
  ⟨rfl, rfl⟩

theorem div_min_by_minus_one :
    divRemainder 0x80000000#32 0xFFFFFFFF#32 = 0#32 ∧ divQuotient 0x80000000#32 0xFFFFFFFF#32 = 0x80000000#32 := by
  decide

theorem divu_by_zero (a : Word) : divuRemainder a 0#32 = a ∧ divuQuotient a 0#32 = 0xFFFFFFFF#32 :=
  ⟨rfl, rfl⟩

/-! ## The signed quotient and remainder are exact off the corners -/

section Signed

variable {a b : Word} (hb : b ≠ 0#32) (hcorner : ¬ (a = 0x80000000#32 ∧ b = 0xFFFFFFFF#32))
include hb hcorner

theorem divQuotient_toInt : (divQuotient a b).toInt = Int.tdiv a.toInt b.toInt := by
  have hexact : (a.sdiv b).toInt = Int.tdiv a.toInt b.toInt :=
    BitVec.toInt_sdiv_of_ne_or_ne a b (not_and_or.1 hcorner)
  rw [divQuotient, if_neg (mt (toInt_eq_zero_iff b).1 hb), if_neg hcorner, ← hexact, BitVec.ofInt_toInt]

theorem divRemainder_toInt : (divRemainder a b).toInt = Int.tmod a.toInt b.toInt := by
  have hexact : a.toInt - Int.tdiv a.toInt b.toInt * b.toInt = (a.srem b).toInt := by
    rw [BitVec.toInt_srem, Int.tmod_def, mul_comm]
  rw [divRemainder, if_neg (mt (toInt_eq_zero_iff b).1 hb), if_neg hcorner, hexact, BitVec.ofInt_toInt, BitVec.toInt_srem]

end Signed

theorem natAbs_tmod_lt (x : Int) {y : Int} (hy : y ≠ 0) : (Int.tmod x y).natAbs < y.natAbs := by
  rw [Int.natAbs_tmod]
  exact Nat.mod_lt _ (Int.natAbs_pos.2 hy)

/-- A remainder of division rounded toward zero is zero or has the dividend's sign. -/
theorem tmod_zero_or_sign (x y : Int) : Int.tmod x y = 0 ∨ (Int.tmod x y < 0 ↔ x < 0) := by
  have hsign := Int.sign_tmod x y
  split_ifs at hsign with hdvd
  · exact .inl (Int.sign_eq_zero_iff_zero.1 hsign)
  · exact .inr (by rw [← Int.sign_eq_neg_one_iff_neg, hsign, Int.sign_eq_neg_one_iff_neg])

/-! ## The unsigned quotient and remainder are exact -/

section Unsigned

variable {b : Word} (hb : b ≠ 0#32) (a : Word)
include hb

theorem divuQuotient_toNat : (divuQuotient a b).toNat = a.toNat / b.toNat := by
  rw [divuQuotient, if_neg (mt (toNat_eq_zero_iff b).1 hb), BitVec.toNat_ofNat,
    Nat.mod_eq_of_lt ((Nat.div_le_self _ _).trans_lt a.isLt)]

theorem divuRemainder_toNat : (divuRemainder a b).toNat = a.toNat % b.toNat := by
  have hmod : a.toNat - a.toNat / b.toNat * b.toNat = a.toNat % b.toNat := by
    rw [Nat.mod_eq_sub_div_mul]
  rw [divuRemainder, if_neg (mt (toNat_eq_zero_iff b).1 hb), hmod, BitVec.toNat_ofNat,
    Nat.mod_eq_of_lt ((Nat.mod_le _ _).trans_lt a.isLt)]

end Unsigned

/-- Settles O48: the round trips of the two encodings, and what each handler writes, at the corners and off them. -/
theorem quotientsAndRemainders : Obligations.QuotientsAndRemainders := by
  refine ⟨?div, ?divu, fun a b d n s => ⟨_, _, writeHiLo_hiLoResult s _ _, fun hb => ?signedByZero, fun ha hb => ?signedMin,
    fun hb hcorner => ?signed⟩, fun a b d n s => ⟨_, _, writeHiLo_hiLoResult s _ _, fun hb => ?unsignedByZero,
    fun hb => ?unsigned⟩⟩
  case div => exact specialWord_of_roundTrip (fun _ _ _ _ => rfl) fun a b d n => Laws.RoundTrip.div a b d n rfl
  case divu => exact specialWord_of_roundTrip (fun _ _ _ _ => rfl) fun a b d n => Laws.RoundTrip.divu a b d n rfl
  case signedByZero =>
    rw [hb]
    exact div_by_zero _
  case signedMin =>
    rw [ha, hb]
    exact div_min_by_minus_one
  case signed =>
    rw [divQuotient_toInt hb hcorner, divRemainder_toInt hb hcorner]
    exact ⟨(Int.tdiv_mul_add_tmod _ _).symm, natAbs_tmod_lt _ (mt (toInt_eq_zero_iff _).1 hb), tmod_zero_or_sign _ _⟩
  case unsignedByZero =>
    rw [hb]
    exact divu_by_zero _
  case unsigned =>
    rw [divuQuotient_toNat hb, divuRemainder_toNat hb]
    exact ⟨(Nat.div_add_mod' _ _).symm, Nat.mod_lt _ (Nat.pos_of_ne_zero (mt (toNat_eq_zero_iff _).1 hb))⟩

end Sys2Proof.Proofs
end
